-- ==== Sys2Proof/Word.lean ====
section
/-! DEFINITION. The word types of the block and the four-word group.
`00_scope.md` R8, R9: every value is an unsigned bit vector of stated width, bit 0 the least significant. -/

namespace Sys2Proof

/-- An interface register, engine word or command word: `XLEN` = 64 bits (R6). -/
abbrev Word := BitVec 64

/-- A 32-bit value: the native word of a PCG engine, the limit of `BND32` (R9). -/
abbrev Half := BitVec 32

/-- A byte of a serialized snapshot (R56) or of a byte-labelled register (R54). -/
abbrev Byte := BitVec 8

/-- Four 64-bit words: `ARG0`..`ARG3`, `RES0`..`RES3`, `W0`..`W3` and `L_ARG0`..`L_ARG3`
(R6: `NARG` = `NRES` = `NW` = 4). -/
structure Words4 where
  w0 : Word
  w1 : Word
  w2 : Word
  w3 : Word
  deriving DecidableEq, Repr

/-- Four zero words. -/
def Words4.zero : Words4 := ⟨0, 0, 0, 0⟩

/-- Word `k` of the four. -/
def Words4.get (q : Words4) (k : Fin 4) : Word :=
  match k with
  | 0 => q.w0
  | 1 => q.w1
  | 2 => q.w2
  | 3 => q.w3

/-- The four words with word `k` replaced by `v`. -/
def Words4.set (q : Words4) (k : Fin 4) (v : Word) : Words4 :=
  match k with
  | 0 => { q with w0 := v }
  | 1 => { q with w1 := v }
  | 2 => { q with w2 := v }
  | 3 => { q with w3 := v }

end Sys2Proof
end

