-- ==== Sys2Proof/Machine/Mixers.lean ====
section
/-! DEFINITION. The constant GOLDEN and the mixing functions. `00_scope.md` R11; `40_word_source.md` R106, R107;
`44_lxm.md` R182. -/

namespace Sys2Proof.Machine

/-- `GOLDEN` (R11). -/
def golden : Word := 0x9E3779B97F4A7C15

/-- `2*GOLDEN` mod 2^64 (R11). -/
def golden2 : Word := 2 * golden

/-- `v ^ (v >>> k)` (R106, R107, R182). -/
def xorShift (k : Nat) (v : Word) : Word := v ^^^ (v >>> k)

/-- The first line of `rrmxmx` (R106): `v ^ rotr_64(v, 49) ^ rotr_64(v, 24)`. -/
def rotMix (v : Word) : Word := v ^^^ v.rotateRight 49 ^^^ v.rotateRight 24

/-- The multiplier of `rrmxmx` (R106). -/
def rrmxmxM : Word := 0x9FB21C651E98DF25

/-- `rrmxmx` (R106). -/
def rrmxmx (v : Word) : Word :=
  xorShift 28 (xorShift 28 (rotMix v * rrmxmxM) * rrmxmxM)

/-- `stafford13` (R107). -/
def stafford13 (z : Word) : Word :=
  xorShift 31 (xorShift 27 (xorShift 30 z * 0xBF58476D1CE4E5B9) * 0x94D049BB133111EB)

/-- The multiplier of `lea64` (R182). -/
def lea64M : Word := 0xDABA0B6EB09322E3

/-- `lea64` (R182). -/
def lea64 (z : Word) : Word :=
  xorShift 32 (xorShift 32 (xorShift 32 z * lea64M) * lea64M)

/-- The xor-shift-rotate update of R163 and R183 with rotations `a`, `c` and shift `b`; both `x1` on the right are the value
after `x1 <- x1 ^ x0`. -/
def xorRotUpdate (a b c : Nat) (x0 x1 : Word) : Word × Word :=
  let y := x1 ^^^ x0
  (x0.rotateLeft a ^^^ y ^^^ (y <<< b), y.rotateLeft c)

end Sys2Proof.Machine
end

