-- ==== Sys2Proof/Machine/Lxm.lean ====
section
/-! DEFINITION. The L64X128Mix engine. `44_lxm.md` R180 to R190. State words: `W0` = a, `W1` = s, `W2` = x0, `W3` = x1. -/

namespace Sys2Proof.Machine

/-- `LXM_M` (R181). -/
def lxmM : Word := 0xD1342543DE82EF95

/-- `XbgUpdate(x0, x1)` (R183). -/
def xbgUpdate (x0 x1 : Word) : Word × Word := xorRotUpdate 24 16 37 x0 x1

/-- `LxmNext()` (R184): the output reads the state before the step. -/
def lxmNext (w : Words4) : Word × Words4 :=
  let x := xbgUpdate w.w2 w.w3
  (lea64 (w.w1 + w.w2), ⟨w.w0, lxmM * w.w1 + w.w0, x.1, x.2⟩)

/-- `LxmSub(s)` (R185). -/
def lxmSub (s : Word) : Word × Word := (stafford13 (s + golden), stafford13 (s + golden2))

/-- `LxmLoad(a, s, x0, x1)` (R186): an all-zero sub-state is replaced by `LxmSub(s)`, and `a` is forced odd. -/
def lxmLoad (v : Words4) : Words4 :=
  if v.w2 = 0 ∧ v.w3 = 0 then ⟨v.w0 ||| 1, v.w1, (lxmSub v.w1).1, (lxmSub v.w1).2⟩
  else ⟨v.w0 ||| 1, v.w1, v.w2, v.w3⟩

/-- `LxmSeed1(seed)` (R187). -/
def lxmSeed1 (seed : Word) : Words4 :=
  ⟨rrmxmx seed ||| 1, seed, (lxmSub seed).1, (lxmSub seed).2⟩

/-- The L64X128MIX snapshot (R189). -/
def lxmSave (w : Words4) : Words4 := w

/-- `LxmRestore(S0, S1, S2, S3)` (R190): none where it raises INVALID_STATE. -/
def lxmRestore (v : Words4) : Option Words4 :=
  if v.w2 = 0 ∧ v.w3 = 0 then none
  else if v.w0.getLsbD 0 = false then none
  else some v

end Sys2Proof.Machine
end

