-- ==== Sys2Proof/Config.lean ====
section
/-! DEFINITION. What an implementation or platform fixes, and the values the spec leaves unspecified.
`00_scope.md` R6; `92_eei_decisions.md`, "Parameters a model takes as arguments"; `93_implementation_defined.md` U2, U12, U13. -/

namespace Sys2Proof

/-- `REG_SPACE`: the register space holds 0x80 bytes (R6, R50). -/
def Config.regSpace : Nat := 0x80

/-- The default value of the parameter `PCG_DEFAULT_INC` (R6, R146, D44). The parameter itself is the field
`pcgDefaultInc` of the state, so that every statement about every state holds for every value of it (log entry 3). -/
def Config.pcgDefaultIncDefault : Word := 0x13C6EF3720A7D0B3

/-- The platform's base address divided by 8 (R50: `BASE` is a parameter and must be 8-byte aligned). No body:
nothing can be proved about its value (log entry 4). -/
opaque Config.baseSlot : BitVec 61

/-- `BASE` (R50): a 64-bit bus address, a multiple of 8 by construction. -/
def Config.base : Word := Config.baseSlot ++ (0 : BitVec 3)

/-- Word `k` of what the command latch holds while no command is latched, on occasion `n`: R34 calls it
unspecified (U2, "any value"). Words 0 to 3 are `L_ARG0`..`L_ARG3`, word 4 is `L_CMD`, word 5 is `L_N`.
A free value, with no body (log entry 2). -/
opaque Config.idleLatchWord : Nat → Nat → Word

/-- `L_FIRST` while no command is latched, on occasion `n`: a free value (R34, U2; log entry 2). -/
opaque Config.idleLatchFirst : Nat → Bool

end Sys2Proof
end

