-- ==== Sys2Proof/Syntax.lean ====
section
/-! DEFINITION. The commands, the interface registers, and the accesses of the host: the whole syntax.
`30_encoding.md` R70 to R81; `10_state.md` R21; `00_scope.md` R3, R7. -/

namespace Sys2Proof

/-- The four engines (R3). `TYPE` = NONE, code 0, is the absence of one: `none : Option Engine`. -/
inductive Engine where
  | pcgXshRr32   -- code 1, PCG_XSH_RR_32
  | pcgXshRs32   -- code 2, PCG_XSH_RS_32
  | xrs128pp     -- code 3, XRS128PP
  | l64x128mix   -- code 4, L64X128MIX
  deriving DecidableEq, Repr

/-- The eleven commands of R72, one constructor per row of `opcode_table.json`. The `TY` field of `SEED1` and
`SEED2` is an engine; that of `LOAD` has one legal value (R73) and is not carried; `TY` and `LEN` of `RESTORE` are
data, the tag and the word count, and every value 0 to 15 decodes (R73). -/
inductive Instr where
  | seed1 (ty : Engine)
  | seed2 (ty : Engine)
  | load
  | save
  | restore (tag len : BitVec 4)
  | size
  | nextw
  | next32
  | next64
  | bnd32
  | bnd64
  deriving DecidableEq, Repr

/-- The sixteen slots of the register map (R21). -/
inductive Reg where
  | id | ctrl | status | cmd
  | arg0 | arg1 | arg2 | arg3
  | res0 | res1 | res2 | res3
  | cnt
  | rsv68 | rsv70 | rsv78
  deriving DecidableEq, Repr

/-- What the host agent does (R7, R80, R81). `rd` and `wr` are bus transactions of any width at any byte offset
from `BASE`, so that the accesses R51 refuses can be written down; `wait` is the host loop of R81. -/
inductive HostOp where
  | rd (off width : Nat)
  | wr (off width : Nat) (v : Word)
  | wait
  deriving DecidableEq, Repr

/-- One line of the host-script language: the two instructions of R80 and the pseudo-instructions of R81. -/
inductive HostLine where
  | wr (r : Reg) (v : Word)
  | rd (r : Reg)
  | args (vs : List Word)
  | cmd (i : Instr)
  | wait
  | exec (i : Instr)
  | ack
  deriving DecidableEq, Repr

/-- Who takes the next transition: one of the two agents (R7), or the reset input (R270). -/
inductive Turn where
  | host
  | engine
  | reset
  deriving DecidableEq, Repr

end Sys2Proof
end

