-- ==== Sys2Proof/WellFormed.lean ====
section
/-! DEFINITION. Which terms of the syntax stand for something the spec defines. `30_encoding.md` R73, R81; `20_memory.md` R51. -/

namespace Sys2Proof

/-- A command with an encoding. Everything the type can say has one, but `SEED2` on L64X128MIX: that (opcode, `TY`)
pair is reserved (R73, R188). -/
def Instr.wf : Instr → Bool
  | .seed1 _ => true
  | .seed2 ty => decide (ty ≠ .l64x128mix)
  | .load => true
  | .save => true
  | .restore _ _ => true
  | .size => true
  | .nextw => true
  | .next32 => true
  | .next64 => true
  | .bnd32 => true
  | .bnd64 => true

/-- A defined access: 8 bytes wide, at a multiple of 8, below `REG_SPACE` (R51). -/
def definedAccess (off width : Nat) : Bool :=
  decide (width = 8) && decide (off % 8 = 0) && decide (off < Config.regSpace)

/-- A host operation the block defines (R51). -/
def HostOp.wf : HostOp → Bool
  | .rd off width => definedAccess off width
  | .wr off width _ => definedAccess off width
  | .wait => true

/-- A script line with an expansion: `args` gives one to four operands, and a command of `cmd` or `exec` has an
encoding (R81). -/
def HostLine.wf : HostLine → Bool
  | .wr _ _ => true
  | .rd _ => true
  | .args vs => decide (1 ≤ vs.length) && decide (vs.length ≤ 4)
  | .cmd i => i.wf
  | .wait => true
  | .exec i => i.wf
  | .ack => true

end Sys2Proof
end

