-- ==== Sys2Proof/Decode.lean ====
section
/-! DEFINITION. The decoder, total on every 64-bit word and rejecting by name, the encoder, and the assembler names.
`30_encoding.md` R71 to R79. -/

namespace Sys2Proof

/-- The type code of an engine (R3, R73). -/
def Engine.code : Engine → BitVec 4
  | .pcgXshRr32 => 1
  | .pcgXshRs32 => 2
  | .xrs128pp => 3
  | .l64x128mix => 4

/-- The engine of a type code; code 0 is NONE and codes 5 to 15 are reserved (R3). -/
def Engine.ofCode (c : BitVec 4) : Option Engine :=
  if c = 1 then some .pcgXshRr32
  else if c = 2 then some .pcgXshRs32
  else if c = 3 then some .xrs128pp
  else if c = 4 then some .l64x128mix
  else none

/-- The `OP` field, bits 7:0 (R71). -/
def opField (v : Word) : BitVec 8 := v.extractLsb' 0 8

/-- The `TY` field, bits 11:8 (R71). -/
def tyField (v : Word) : BitVec 4 := v.extractLsb' 8 4

/-- The `LEN` field, bits 15:12 (R71). -/
def lenField (v : Word) : BitVec 4 := v.extractLsb' 12 4

/-- The `RSV` field, bits 63:16 (R71). -/
def rsvField (v : Word) : BitVec 48 := v.extractLsb' 16 48

/-- Why a word is `Illegal`: the seven conditions of R77, by number. -/
inductive IllegalReason where
  | reservedBits        -- 1: `v[63:16]` is not 0
  | reservedOpcode      -- 2: no opcode of R72
  | seed1Type           -- 3: `SEED1` with `TY` not in 1..4
  | seed2Type           -- 4: `SEED2` with `TY` not in 1..3
  | loadType            -- 5: `LOAD` with `TY` not 4
  | configLength        -- 6: `SEED1`, `SEED2` or `LOAD` with `LEN` not 0
  | fieldsNotZero       -- 7: another command with `TY` or `LEN` not 0
  deriving DecidableEq, Repr

/-- What the decoder answers (R77): a command, or `Illegal` with the reason. -/
inductive Decoded where
  | ok (i : Instr)
  | illegal (r : IllegalReason)
  deriving DecidableEq, Repr

/-- The command a decoder's answer holds, if it holds one. -/
def Decoded.instr? : Decoded → Option Instr
  | .ok i => some i
  | .illegal _ => none

/-- A command with no operand field: legal exactly when `TY` and `LEN` are 0 (R78). -/
def decodePlain (ty len : BitVec 4) (i : Instr) : Decoded :=
  if ty = 0 ∧ len = 0 then .ok i else .illegal .fieldsNotZero

/-- `SEED1` (R78): `TY` in 1..4, `LEN` = 0. -/
def decodeSeed1 (ty len : BitVec 4) : Decoded :=
  match Engine.ofCode ty with
  | none => .illegal .seed1Type
  | some e => if len = 0 then .ok (.seed1 e) else .illegal .configLength

/-- `SEED2` (R78): `TY` in 1..3, `LEN` = 0. -/
def decodeSeed2 (ty len : BitVec 4) : Decoded :=
  match Engine.ofCode ty with
  | none => .illegal .seed2Type
  | some .l64x128mix => .illegal .seed2Type
  | some e => if len = 0 then .ok (.seed2 e) else .illegal .configLength

/-- `LOAD` (R78): `TY` = 4, `LEN` = 0. -/
def decodeLoad (ty len : BitVec 4) : Decoded :=
  if ty = 4 then if len = 0 then .ok .load else .illegal .configLength
  else .illegal .loadType

/-- The decoder of R78, on the fields of the word. -/
def decodeFields (op : BitVec 8) (ty len : BitVec 4) : Decoded :=
  if op = 0x01 then decodeSeed1 ty len
  else if op = 0x02 then decodeSeed2 ty len
  else if op = 0x03 then decodeLoad ty len
  else if op = 0x04 then decodePlain ty len .save
  else if op = 0x05 then .ok (.restore ty len)
  else if op = 0x06 then decodePlain ty len .size
  else if op = 0x10 then decodePlain ty len .nextw
  else if op = 0x11 then decodePlain ty len .next32
  else if op = 0x12 then decodePlain ty len .next64
  else if op = 0x20 then decodePlain ty len .bnd32
  else if op = 0x21 then decodePlain ty len .bnd64
  else .illegal .reservedOpcode

/-- `Decode(v)` (R77, R78): total on every 64-bit word. -/
def decode (v : Word) : Decoded :=
  if rsvField v = 0 then decodeFields (opField v) (tyField v) (lenField v)
  else .illegal .reservedBits

/-- The opcode of a command (R72). -/
def Instr.opcode : Instr → BitVec 8
  | .seed1 _ => 0x01
  | .seed2 _ => 0x02
  | .load => 0x03
  | .save => 0x04
  | .restore _ _ => 0x05
  | .size => 0x06
  | .nextw => 0x10
  | .next32 => 0x11
  | .next64 => 0x12
  | .bnd32 => 0x20
  | .bnd64 => 0x21

/-- The `TY` field a command is written with (R71, R72). -/
def Instr.ty : Instr → BitVec 4
  | .seed1 e => e.code
  | .seed2 e => e.code
  | .load => 4
  | .save => 0
  | .restore tag _ => tag
  | .size => 0
  | .nextw => 0
  | .next32 => 0
  | .next64 => 0
  | .bnd32 => 0
  | .bnd64 => 0

/-- The `LEN` field a command is written with (R71, R72). -/
def Instr.len : Instr → BitVec 4
  | .seed1 _ => 0
  | .seed2 _ => 0
  | .load => 0
  | .save => 0
  | .restore _ len => len
  | .size => 0
  | .nextw => 0
  | .next32 => 0
  | .next64 => 0
  | .bnd32 => 0
  | .bnd64 => 0

/-- The encoder: the 64-bit word of a command, format C (R71, R79). -/
def encode (i : Instr) : Word :=
  (0 : BitVec 48) ++ i.len ++ i.ty ++ i.opcode

/-- The decoder on a row of `opcode_table.json`: the command's bits, of which `nbits` are given and the rest are 0.
A command has 64 bits (R70), so a longer one is none. -/
def decodeTableWord (nbits w : Nat) : Option Instr :=
  if nbits ≤ 64 then (decode (BitVec.ofNat 64 (w % 2 ^ nbits))).instr? else none

/-- A row of `opcode_table.json`: a word is written with this mnemonic only if its bits under `mask` are `bits`. -/
structure OpcodeRow where
  mnemonic : String
  bits : Word
  mask : Word
  deriving DecidableEq, Repr

/-- The eleven rows of `opcode_table.json`, in its order. -/
def opcodeRows : List OpcodeRow :=
  [ ⟨"SEED1", 0x0000000000000001, 0xFFFFFFFFFFFFF0FF⟩,
    ⟨"SEED2", 0x0000000000000002, 0xFFFFFFFFFFFFF0FF⟩,
    ⟨"LOAD", 0x0000000000000003, 0xFFFFFFFFFFFFF0FF⟩,
    ⟨"SAVE", 0x0000000000000004, 0xFFFFFFFFFFFFFFFF⟩,
    ⟨"RESTORE", 0x0000000000000005, 0xFFFFFFFFFFFF00FF⟩,
    ⟨"SIZE", 0x0000000000000006, 0xFFFFFFFFFFFFFFFF⟩,
    ⟨"NEXTW", 0x0000000000000010, 0xFFFFFFFFFFFFFFFF⟩,
    ⟨"NEXT32", 0x0000000000000011, 0xFFFFFFFFFFFFFFFF⟩,
    ⟨"NEXT64", 0x0000000000000012, 0xFFFFFFFFFFFFFFFF⟩,
    ⟨"BND32", 0x0000000000000020, 0xFFFFFFFFFFFFFFFF⟩,
    ⟨"BND64", 0x0000000000000021, 0xFFFFFFFFFFFFFFFF⟩ ]

/-- The mnemonic of a command (R72). -/
def Instr.mnemonic : Instr → String
  | .seed1 _ => "SEED1"
  | .seed2 _ => "SEED2"
  | .load => "LOAD"
  | .save => "SAVE"
  | .restore _ _ => "RESTORE"
  | .size => "SIZE"
  | .nextw => "NEXTW"
  | .next32 => "NEXT32"
  | .next64 => "NEXT64"
  | .bnd32 => "BND32"
  | .bnd64 => "BND64"

/-- The name of an engine (R3). -/
def Engine.name : Engine → String
  | .pcgXshRr32 => "PCG_XSH_RR_32"
  | .pcgXshRs32 => "PCG_XSH_RS_32"
  | .xrs128pp => "XRS128PP"
  | .l64x128mix => "L64X128MIX"

/-- The spellings of the numbers 0 to 15. -/
def numberNames : List String :=
  ["0", "1", "2", "3", "4", "5", "6", "7", "8", "9", "10", "11", "12", "13", "14", "15"]

/-- A number 0 to 15 as the assembler writes it (R79). -/
def numberName (k : BitVec 4) : String := numberNames.getD k.toNat ""

/-- A tag as the assembler writes it: a type name, `NONE`, or a number (R79). -/
def tagName (tag : BitVec 4) : String :=
  match Engine.ofCode tag with
  | some e => e.name
  | none => if tag = 0 then "NONE" else numberName tag

/-- The engine an assembler operand names (R79). -/
def engineOfName (s : String) : Option Engine :=
  [Engine.pcgXshRr32, .pcgXshRs32, .xrs128pp, .l64x128mix].find? (fun e => decide (e.name = s))

/-- The number 0 to 15 an assembler operand spells (R79). -/
def numberOfName (s : String) : Option (BitVec 4) :=
  (numberNames.findIdx? (fun t => decide (t = s))).map (BitVec.ofNat 4)

/-- The tag an assembler operand spells: a type name, `NONE`, or a number 0 to 15 (R79). -/
def tagOfName (s : String) : Option (BitVec 4) :=
  match engineOfName s with
  | some e => some e.code
  | none => if s = "NONE" then some 0 else numberOfName s

/-- The assembler syntax of a command: its mnemonic and its operands (R79). -/
def Instr.asm (i : Instr) : String × List String :=
  match i with
  | .seed1 e => (i.mnemonic, [e.name])
  | .seed2 e => (i.mnemonic, [e.name])
  | .load => (i.mnemonic, [Engine.l64x128mix.name])
  | .restore tag len => (i.mnemonic, [tagName tag, numberName len])
  | .save => (i.mnemonic, [])
  | .size => (i.mnemonic, [])
  | .nextw => (i.mnemonic, [])
  | .next32 => (i.mnemonic, [])
  | .next64 => (i.mnemonic, [])
  | .bnd32 => (i.mnemonic, [])
  | .bnd64 => (i.mnemonic, [])

/-- The command with no operand that a mnemonic names (R79). -/
def plainOfMnemonic (m : String) : Option Instr :=
  [Instr.save, .size, .nextw, .next32, .next64, .bnd32, .bnd64].find? (fun i => decide (i.mnemonic = m))

/-- The command an assembler line stands for, if it is a line of R79. -/
def assemble (m : String) (ops : List String) : Option Instr :=
  match ops with
  | [] => plainOfMnemonic m
  | [op] =>
    match engineOfName op with
    | none => none
    | some e =>
      if m = "SEED1" then some (.seed1 e)
      else if m = "SEED2" then if e = .l64x128mix then none else some (.seed2 e)
      else if m = "LOAD" then if e = .l64x128mix then some .load else none
      else none
  | [tag, len] =>
    if m = "RESTORE" then
      match tagOfName tag, numberOfName len with
      | some t, some l => some (.restore t l)
      | _, _ => none
    else none
  | _ => none

end Sys2Proof
end

