-- ==== Sys2Proof/Machine/State.lean ====
section
/-! DEFINITION. The state of the block, why a step can stop, and the state after reset.
`10_state.md` R20 to R38; `00_scope.md` R7; `70_reset_and_hazards.md` R270, R271. -/

namespace Sys2Proof.Machine

/-- Why the machine stops with a fault. -/
inductive Fault where
  /-- The host agent's next access is one the spec gives no step: not 8 bytes wide, not 8-byte aligned, or across a
  register boundary (R51, U1 "stuck"). Raised by the host's turn, by no command. Safe: the model stops where a
  platform may answer in some way the spec does not say. -/
  | accessRefused (off width : Nat)
  deriving DecidableEq, Repr

/-- Why the machine refuses a step. -/
inductive Refusal where
  /-- A command with no meaning yet; raised by no arm of this model. Safe. -/
  | notModelled (mnemonic : String)
  /-- The host agent's next access lies at or beyond `REG_SPACE`, so it "is not to this block" (R51) and goes to a part of
  the platform the spec does not describe (R58). Raised by the host's turn, by no command. Safe. -/
  | accessElsewhere (off width : Nat)
  deriving DecidableEq, Repr

/-- The error codes of R241; codes 5 to 15 are never written. -/
inductive ErrCode where
  | ok                -- code 0
  | invalidArgument   -- code 1
  | invalidState      -- code 2
  | notConfigured     -- code 3
  | illegalCommand    -- code 4
  deriving DecidableEq, Repr

/-- The command latch (R34): `L_CMD`, `L_ARG0`..`L_ARG3`, `L_FIRST`, `L_N`. -/
structure Latch where
  cmd : Word
  args : Words4
  first : Bool
  n : Word
  deriving DecidableEq, Repr

/-- Everything the spec gives the block (R20), the parameter `PCG_DEFAULT_INC` (R6), and the model's own record of
the two agents (R7). `ID` is a constant and `irq` is derived, so neither is a field (R24, R247). -/
structure State where
  /-- `CTRL.IE` (R25). -/
  ie : Bool
  /-- `STATUS.BUSY` (R26). -/
  busy : Bool
  /-- `STATUS.DONE` (R26). -/
  done : Bool
  /-- `STATUS.OVR` (R26). -/
  ovr : Bool
  /-- `STATUS.ERR` (R26, R241). -/
  err : ErrCode
  /-- `ARG0`..`ARG3` (R22). -/
  arg : Words4
  /-- `RES0`..`RES3` (R23). -/
  res : Words4
  /-- `CNT` (R28). -/
  cnt : Word
  /-- `TYPE` (R29); `none` is NONE. -/
  type : Option Engine
  /-- `W0`..`W3` (R30). -/
  w : Words4
  /-- The command latch (R34). -/
  latch : Latch
  /-- The parameter `PCG_DEFAULT_INC` (R6, R146): fixed for the machine, no transition writes it (log entry 3). -/
  pcgDefaultInc : Word
  /-- The model's own: what the host agent still has to do, in its order (R7, R60; log entry 5). -/
  host : List HostOp
  /-- The model's own: who takes the coming transitions (R7, U11; log entry 6). -/
  turns : List Turn
  /-- The model's own: the values the host's `rd` lines have read, oldest first (R80; log entry 5). -/
  reads : List Word
  /-- The model's own: how many free values have been taken (log entry 2). -/
  freeCount : Nat
  deriving DecidableEq, Repr

/-- The state after reset (R38, R271). The latch is unspecified there; its zeros are log entry 1. The model's own fields
hold no host operation, no turn, no read, and no free value taken (log entries 2, 5, 6). -/
def State.reset : State where
  ie := false
  busy := false
  done := false
  ovr := false
  err := .ok
  arg := Words4.zero
  res := Words4.zero
  cnt := 0
  type := none
  w := Words4.zero
  latch := ⟨0, Words4.zero, false, 0⟩
  pcgDefaultInc := Config.pcgDefaultIncDefault
  host := []
  turns := []
  reads := []
  freeCount := 0

end Sys2Proof.Machine
end

