-- ==== Sys2Proof/Machine/Flags.lean ====
section
/-! DEFINITION. The `STATUS` word and its write-1-to-clear bits, the `CTRL` word, the `ID` constant, and the `irq` level.
`10_state.md` R24, R25, R26, R33; `60_exceptions.md` R241, R247. -/

namespace Sys2Proof.Machine

/-- The 4-bit error code (R241). -/
def ErrCode.code : ErrCode → BitVec 4
  | .ok => 0
  | .invalidArgument => 1
  | .invalidState => 2
  | .notConfigured => 3
  | .illegalCommand => 4

/-- The 4-bit code of `TYPE`: 0 for NONE (R29). -/
def typeCode : Option Engine → BitVec 4
  | none => 0
  | some e => e.code

/-- `StateSize(t)` of an engine: its number of snapshot words (R205). -/
def stateSize : Engine → BitVec 4
  | .pcgXshRr32 => 2
  | .pcgXshRs32 => 2
  | .xrs128pp => 2
  | .l64x128mix => 4

/-- `StateSize(TYPE)`: 0 for NONE (R205). -/
def sizeCode : Option Engine → BitVec 4
  | none => 0
  | some e => stateSize e

/-- One bit as a bit vector. -/
def flagBit (b : Bool) : BitVec 1 := BitVec.ofBool b

/-- The value a read of `STATUS` returns (R26, R52): bits 63:16 and bit 3 read 0. -/
def statusWord (s : State) : Word :=
  (0 : BitVec 48) ++ sizeCode s.type ++ typeCode s.type ++ s.err.code ++ (0 : BitVec 1) ++ flagBit s.ovr
    ++ flagBit s.done ++ flagBit s.busy

/-- The value a read of `CTRL` returns (R25, R52). -/
def ctrlWord (s : State) : Word := (flagBit s.ie).setWidth 64

/-- `ID` (R24): reserved, `ENGINES`, `VERSION`, `NAME`. -/
def idWord : Word :=
  (0 : BitVec 12) ++ (0xF : BitVec 4) ++ (0x0001 : BitVec 16) ++ (0x50524E47 : BitVec 32)

/-- The `irq` output (R247): recomputed from the state after every transition. -/
def irq (s : State) : Bool := s.done && s.ie

/-- A host write of `v` to `STATUS` (R26): write 1 to clear, bit 1 `DONE`, bit 2 `OVR`, and nothing else. -/
def writeStatus (v : Word) (s : State) : State :=
  { s with
    done := s.done && !v.getLsbD 1
    ovr := s.ovr && !v.getLsbD 2 }

/-- A host write of `v` to `CTRL` (R25): bit 0 is `IE`, the other bits are ignored. -/
def writeCtrl (v : Word) (s : State) : State :=
  { s with ie := v.getLsbD 0 }

end Sys2Proof.Machine
end

