-- ==== Sys2Proof/Machine/Operands.lean ====
section
/-! DEFINITION. How each command's operands are read from the latch, and how the error checks read them.
`30_encoding.md` R74, R75. -/

namespace Sys2Proof.Machine

/-- `seed` of `SEED1` and `seed0` of `SEED2`: the whole of `L_ARG0` (R74, R75). -/
def seed0Operand (s : State) : Word := s.latch.args.w0

/-- `seed1` of `SEED2`: the whole of `L_ARG1` (R74, R75). -/
def seed1Operand (s : State) : Word := s.latch.args.w1

/-- `(a, s, x0, x1)` of `LOAD`: `L_ARG0`..`L_ARG3` (R74, R75). -/
def loadOperands (s : State) : Words4 := s.latch.args

/-- The snapshot words `S0`..`S3` of `RESTORE`: `L_ARG0`..`L_ARG3` (R74, R75). -/
def snapshotOperands (s : State) : Words4 := s.latch.args

/-- The limit of `BND32`: bits 31:0 of `L_ARG0`, bits 63:32 ignored; signed where a sign is asked for (R75). -/
def limit32 (s : State) : Half := s.latch.args.w0.extractLsb' 0 32

/-- The limit of `BND64`: the whole of `L_ARG0`; signed where a sign is asked for (R75). -/
def limit64 (s : State) : Word := s.latch.args.w0

/-- A limit that is not strictly positive as a signed number (R129: valid exactly when it is at least 1). -/
def badLimit {n : Nat} (l : BitVec n) : Bool := decide (l.toInt ≤ 0)

end Sys2Proof.Machine
end

