-- ==== Sys2Proof/Machine/Ops.lean ====
section
/-! DEFINITION. The shared operations: acceptance of a command, successful completion, error completion (the block's only
exception) and its acknowledgement, and the reads and writes of the register space.
`10_state.md` R34 to R37; `20_memory.md` R50 to R54; `60_exceptions.md` R240 to R251; `70_reset_and_hazards.md` R270. -/

namespace Sys2Proof.Machine

/-! ## The latch -/

/-- What the latch holds on occasion `n` while no command is latched: free values (R34, U2; log entry 2). -/
def idleLatch (n : Nat) : Latch :=
  { cmd := Config.idleLatchWord n 4
    args := ⟨Config.idleLatchWord n 0, Config.idleLatchWord n 1, Config.idleLatchWord n 2, Config.idleLatchWord n 3⟩
    first := Config.idleLatchFirst n
    n := Config.idleLatchWord n 5 }

/-- The latch is given up: its contents are unspecified from here on (R34). -/
def releaseLatch (s : State) : State :=
  { s with
    latch := idleLatch s.freeCount
    freeCount := s.freeCount + 1 }

/-- The latch of a command word `v` accepted with operands `args` (R36). -/
def acceptedLatch (v : Word) (args : Words4) : Latch :=
  { cmd := v, args := args, first := true, n := 0 }

/-- Acceptance of the command word `v` (R36, the branch `BUSY` = 0). -/
def acceptCommand (v : Word) (s : State) : State :=
  { s with
    latch := acceptedLatch v s.arg
    done := false
    busy := true }

/-- A host write of `v` to `CMD` (R36): accepted while idle, discarded with `OVR` set while a command runs. -/
def writeCmd (v : Word) (s : State) : State :=
  if s.busy then { s with ovr := true } else acceptCommand v s

/-! ## Completion -/

/-- Result assignments `RESi <- v`, in order (R37). -/
def assignRes (r : List (Fin 4 × Word)) (res : Words4) : Words4 :=
  r.foldl (fun q kv => q.set kv.1 kv.2) res

/-- `complete(R)`, the successful completion (R37). The latch is given up with `BUSY` (R34). -/
def complete (r : List (Fin 4 × Word)) (s : State) : State :=
  releaseLatch
    { s with
      res := assignRes r s.res
      cnt := s.latch.n
      err := .ok
      done := true
      busy := false }

/-- `raise Error(code)`, the error completion (R240, R244): the one exception of the block. It saves nothing but the code,
changes no mode and transfers no control (R249). The latch is given up with `BUSY` (R34). -/
def raiseError (code : ErrCode) (s : State) : State :=
  releaseLatch
    { s with
      err := code
      cnt := 0
      done := true
      busy := false }

/-- The return from a completion, successful or not (R251): the host acknowledges it by writing 1 to `STATUS.DONE`
(and `STATUS.OVR`), the `ack` of R81. The other return is the acceptance of the next command. -/
def acknowledge (s : State) : State := writeStatus 0x6 s

/-- The engine's step on a command other than a configuring one: NOT_CONFIGURED while `TYPE` = NONE (R29, R243),
otherwise the command's own rule on the configured engine. -/
def whenConfigured (s : State) (rule : Engine → State → State) : Host.Outcome State Fault Refusal :=
  match s.type with
  | none => .next (raiseError .notConfigured s)
  | some e => .next (rule e s)

/-- A configuring command's completion (R203): `TYPE` and all four state words are replaced, no result is written. -/
def configure (e : Engine) (w : Words4) (s : State) : State :=
  complete [] { s with type := some e, w := w }

/-! ## The register space -/

/-- The byte offset of a register (R21). -/
def regOffset : Reg → Nat
  | .id => 0x00
  | .ctrl => 0x08
  | .status => 0x10
  | .cmd => 0x18
  | .arg0 => 0x20
  | .arg1 => 0x28
  | .arg2 => 0x30
  | .arg3 => 0x38
  | .res0 => 0x40
  | .res1 => 0x48
  | .res2 => 0x50
  | .res3 => 0x58
  | .cnt => 0x60
  | .rsv68 => 0x68
  | .rsv70 => 0x70
  | .rsv78 => 0x78

/-- Every slot of the map, in offset order (R21). -/
def allRegs : List Reg :=
  [.id, .ctrl, .status, .cmd, .arg0, .arg1, .arg2, .arg3, .res0, .res1, .res2, .res3, .cnt, .rsv68, .rsv70, .rsv78]

/-- The register at a byte offset, if one begins there (R21). -/
def regAt (off : Nat) : Option Reg := allRegs.find? (fun r => regOffset r == off)

/-- What a read of a register returns (R52). No read has a side effect. -/
def readReg (s : State) : Reg → Word
  | .id => idWord
  | .ctrl => ctrlWord s
  | .status => statusWord s
  | .cmd => 0
  | .arg0 => s.arg.w0
  | .arg1 => s.arg.w1
  | .arg2 => s.arg.w2
  | .arg3 => s.arg.w3
  | .res0 => s.res.w0
  | .res1 => s.res.w1
  | .res2 => s.res.w2
  | .res3 => s.res.w3
  | .cnt => s.cnt
  | .rsv68 => 0
  | .rsv70 => 0
  | .rsv78 => 0

/-- What a write of `v` to a register does (R53). -/
def writeReg (r : Reg) (v : Word) (s : State) : State :=
  match r with
  | .id => s
  | .ctrl => writeCtrl v s
  | .status => writeStatus v s
  | .cmd => writeCmd v s
  | .arg0 => { s with arg := s.arg.set 0 v }
  | .arg1 => { s with arg := s.arg.set 1 v }
  | .arg2 => { s with arg := s.arg.set 2 v }
  | .arg3 => { s with arg := s.arg.set 3 v }
  | .res0 => s
  | .res1 => s
  | .res2 => s
  | .res3 => s
  | .cnt => s
  | .rsv68 => s
  | .rsv70 => s
  | .rsv78 => s

/-- `MemRead(off, 8)` (R52): the whole register at an aligned offset of the space, and nothing elsewhere. -/
def memRead (s : State) (off : Nat) : Option Word := (regAt off).map (readReg s)

/-- `MemWrite(off, 8, v)` (R53): defined at the offset of a register. -/
def memWrite (off : Nat) (v : Word) (s : State) : Option State := (regAt off).map (fun r => writeReg r v s)

/-- The bus address of a byte offset of the block (R50). -/
def busAddress (off : Nat) : Word := Config.base + BitVec.ofNat 64 off

/-- The byte offset of a bus address from `BASE`, mod 2^64: offsets of 0x80 and more are not to this block (R50, R51). -/
def busOffset (addr : Word) : Nat := (addr - Config.base).toNat

/-- The bus access of the host at an absolute address, as the block sees it (R50). -/
def readAt (addr : Word) (width : Nat) : HostOp := .rd (busOffset addr) width

/-- The bus write of the host at an absolute address, as the block sees it (R50). -/
def writeAt (addr : Word) (width : Nat) (v : Word) : HostOp := .wr (busOffset addr) width v

/-- How a platform that presents a register as 8 bytes labels them (R54): the byte at offset `off + k` holds bits
`8k+7 : 8k` of the register at `off`. A label only: it defines no access. -/
def byteAt (s : State) (off : Nat) : Option Byte :=
  (memRead s (off - off % 8)).map (fun v => v.extractLsb' (8 * (off % 8)) 8)

/-- Where a host access lands (R51). -/
inductive Target where
  | reg (r : Reg)
  | refused
  | elsewhere
  deriving DecidableEq, Repr

/-- Where an access of `width` bytes at offset `off` lands (R51): beyond the space it is not to this block, within it only
an 8-byte access at a register's offset is defined. -/
def target (off width : Nat) : Target :=
  if Config.regSpace ≤ off then .elsewhere
  else if width = 8 then
    match regAt off with
    | some r => .reg r
    | none => .refused
  else .refused

/-! ## Reset -/

/-- The transition of the reset input (R270): every piece of state to its value of R38, whose latch is unspecified. The
parameter and the agents' own record are not state of the block and stay. -/
def resetBlock (s : State) : State :=
  { State.reset with
    latch := idleLatch s.freeCount
    freeCount := s.freeCount + 1
    pcgDefaultInc := s.pcgDefaultInc
    host := s.host
    turns := s.turns
    reads := s.reads }

end Sys2Proof.Machine
end

