-- ==== Sys2Proof/Machine/Pcg.lean ====
section
/-! DEFINITION. The PCG XSH-RR-32 and XSH-RS-32 engines. `42_pcg.md` R140 to R148. State words: `W0` = s, `W1` = inc. -/

namespace Sys2Proof.Machine

/-- `PCG_M` (R141). -/
def pcgM : Word := 6364136223846793005

/-- The LCG step `bump(x)` with increment `inc` (R141). -/
def bump (inc x : Word) : Word := x * pcgM + inc

/-- The XSH-RR output function (R142). -/
def xshRr (x : Word) : Half :=
  (((x ^^^ (x >>> 18)) >>> 27).extractLsb' 0 32).rotateRight (x.extractLsb' 59 5).toNat

/-- The XSH-RS output function (R144). -/
def xshRs (x : Word) : Half :=
  ((x ^^^ (x >>> 22)) >>> (22 + (x.extractLsb' 61 3).toNat)).extractLsb' 0 32

/-- `PcgNext(variant)` (R143), the variant given by its output function: the output reads the state before the step. -/
def pcgNext (out : Word → Half) (w : Words4) : Half × Words4 :=
  (out w.w0, { w with w0 := bump w.w1 w.w0 })

/-- `PcgSeed2(seed0, seed1)` (R145). -/
def pcgSeed2 (seed0 seed1 : Word) : Words4 :=
  let inc := (seed1 <<< 1) ||| 1
  ⟨bump inc (seed0 + inc), inc, 0, 0⟩

/-- `PcgSeed1(seed)` (R146), `PCG_DEFAULT_INC` an argument. -/
def pcgSeed1 (defaultInc seed : Word) : Words4 :=
  let inc := defaultInc ||| 1
  ⟨bump inc (seed + inc), inc, 0, 0⟩

/-- `PcgSave()` (R147). -/
def pcgSave (w : Words4) : Words4 := ⟨w.w0, w.w1 >>> 1, 0, 0⟩

/-- `PcgRestore(S0, S1)` (R148). -/
def pcgRestore (v : Words4) : Words4 := ⟨v.w0, (v.w1 <<< 1) ||| 1, 0, 0⟩

end Sys2Proof.Machine
end

