-- ==== Sys2Proof/Machine/Xoroshiro.lean ====
section
/-! DEFINITION. The XoRoShiRo128++ engine. `43_xoroshiro.md` R160 to R169. State words: `W0` = x0, `W1` = x1. -/

namespace Sys2Proof.Machine

/-- `XrsOut(x0, x1)` (R161). -/
def xrsOut (x0 x1 : Word) : Word := (x0 + x1).rotateLeft 17 + x0

/-- `XrsUpdate(x0, x1)` (R163). -/
def xrsUpdate (x0 x1 : Word) : Word × Word := xorRotUpdate 49 21 28 x0 x1

/-- `XrsNext()` (R164): the output reads the state before the update. -/
def xrsNext (w : Words4) : Word × Words4 :=
  let x := xrsUpdate w.w0 w.w1
  (xrsOut w.w0 w.w1, { w with w0 := x.1, w1 := x.2 })

/-- `XrsSeed1(seed)` (R165). -/
def xrsSeed1 (seed : Word) : Words4 := ⟨rrmxmx (seed + golden), rrmxmx (seed + golden2), 0, 0⟩

/-- `XrsSeed2(seed0, seed1)` (R167): the all-zero input and an all-zero result go to the single-seed path with seed 0. -/
def xrsSeed2 (seed0 seed1 : Word) : Words4 :=
  if seed0 = 0 ∧ seed1 = 0 then xrsSeed1 0
  else
    let x0 := rrmxmx (seed0 + golden)
    let x1 := rrmxmx (seed1 + golden2)
    if x0 = 0 ∧ x1 = 0 then xrsSeed1 0 else ⟨x0, x1, 0, 0⟩

/-- The XRS128PP snapshot (R168). -/
def xrsSave (w : Words4) : Words4 := ⟨w.w0, w.w1, 0, 0⟩

/-- `XrsRestore(S0, S1)` (R169): none where it raises INVALID_STATE. -/
def xrsRestore (v : Words4) : Option Words4 :=
  if v.w0 = 0 ∧ v.w1 = 0 then none else some ⟨v.w0, v.w1, 0, 0⟩

end Sys2Proof.Machine
end

