-- ==== Sys2Proof/Machine/WordSource.lean ====
section
/-! DEFINITION. The native-word primitive and the raw draw commands NEXTW, NEXT32, NEXT64. `40_word_source.md` R100 to R105. -/

namespace Sys2Proof.Machine

/-- `Width(t)` (R105). There is none for NONE. -/
def width : Engine → Nat
  | .pcgXshRr32 => 32
  | .pcgXshRs32 => 32
  | .xrs128pp => 64
  | .l64x128mix => 64

/-- One native word of an engine and the state words after it (R101): a function of the state words alone (R100). -/
def nextWord (e : Engine) (w : Words4) : Word × Words4 :=
  match e with
  | .pcgXshRr32 => ((pcgNext xshRr w).1.setWidth 64, (pcgNext xshRr w).2)
  | .pcgXshRs32 => ((pcgNext xshRs w).1.setWidth 64, (pcgNext xshRs w).2)
  | .xrs128pp => xrsNext w
  | .l64x128mix => lxmNext w

/-- The state after one draw (R101): the engine's words advance and `L_N` counts the draw. -/
def afterDraw (e : Engine) (s : State) : State :=
  { s with
    w := (nextWord e s.w).2
    latch := { s.latch with n := s.latch.n + 1 } }

/-- The native word that a draw in this state returns (R101). -/
def drawn (e : Engine) (s : State) : Word := (nextWord e s.w).1

/-- The low 32 bits of a native word, as on a 32-bit engine (R103, R104). -/
def lowHalf (v : Word) : Half := v.extractLsb' 0 32

/-- The high 32 bits of a native word, as on a 64-bit engine (R103). -/
def highHalf (v : Word) : Half := v.extractLsb' 32 32

/-- The 64-bit value drawn in this state (R104): two draws, the first in bits 63:32, on a 32-bit engine; one elsewhere. -/
def drawn64 (e : Engine) (s : State) : Word :=
  if width e = 32 then lowHalf (drawn e s) ++ lowHalf (drawn e (afterDraw e s)) else drawn e s

/-- The state after a 64-bit value is drawn (R104). -/
def afterDraw64 (e : Engine) (s : State) : State :=
  if width e = 32 then afterDraw e (afterDraw e s) else afterDraw e s

/-- The 32-bit value drawn in this state (R103). -/
def drawn32 (e : Engine) (s : State) : Half :=
  if width e = 32 then lowHalf (drawn e s) else highHalf (drawn e s)

/-- `NEXTW` (R102). -/
def execNextw (s : State) : Host.Outcome State Fault Refusal :=
  whenConfigured s (fun e s => complete [(0, drawn e s)] (afterDraw e s))

/-- `NEXT32` (R103). -/
def execNext32 (s : State) : Host.Outcome State Fault Refusal :=
  whenConfigured s (fun e s => complete [(0, (drawn32 e s).setWidth 64)] (afterDraw e s))

/-- `NEXT64` (R104). -/
def execNext64 (s : State) : Host.Outcome State Fault Refusal :=
  whenConfigured s (fun e s => complete [(0, drawn64 e s)] (afterDraw64 e s))

end Sys2Proof.Machine
end

