-- ==== Sys2Proof/Machine/Bounded.lean ====
section
/-! DEFINITION. The rejection-sampling controller and the commands BND32 and BND64. `41_bounded.md` R120 to R129. -/

namespace Sys2Proof.Machine

/-- `ModAccept_N(c, L)` (R121), N the width: none where the candidate is rejected. -/
def modAccept {n : Nat} (c l : BitVec n) : Option (BitVec n) :=
  let bits := c >>> 1
  let val := bits % l
  let t := bits - val + (l - 1)
  if t.toInt < 0 then none else some val

/-- `L & (L - 1)` = 0: a power-of-two limit, for L > 0 (R122). -/
def isPow2 {n : Nat} (l : BitVec n) : Bool := decide (l &&& (l - 1) = 0)

/-- The general scheme (R120): the power-of-two path (R122), which always accepts, or modulo rejection (R121). -/
def generalAccept {n : Nat} (c l : BitVec n) : Option (BitVec n) :=
  if isPow2 l then some (c &&& (l - 1)) else modAccept c l

/-- `LemireAccept(w, L)` (R123): none where the candidate is rejected. -/
def lemireAccept (w : Word) (l : Half) : Option Half :=
  let m : Word := (highHalf w).setWidth 64 * l.setWidth 64
  let t : Half := BitVec.ofNat 32 (2 ^ 32 % l.toNat)
  if lowHalf m < t then none else some (highHalf m)

/-- The acceptance test of `BND32` on this state's candidate (R120, R124). -/
def candidate32 (e : Engine) (s : State) : Option Half :=
  if width e = 32 then generalAccept (lowHalf (drawn e s)) (limit32 s) else lemireAccept (drawn e s) (limit32 s)

/-- The acceptance test of `BND64` on this state's candidate (R120, R125). -/
def candidate64 (e : Engine) (s : State) : Option Word := generalAccept (drawn64 e s) (limit64 s)

/-- A candidate step's end (R126): an accepted candidate completes the command, a rejected one ends the step with `BUSY`
as it is and the draws made; `L_FIRST` is 0 from the first step on (R35, R243). -/
def endCandidate (v : Option Word) (s : State) : State :=
  match v with
  | some r => complete [(0, r)] s
  | none => { s with latch := { s.latch with first := false } }

/-- `BND32` (R124): the first step checks the limit, and every step that goes on tests one candidate. -/
def execBnd32 (s : State) : Host.Outcome State Fault Refusal :=
  whenConfigured s (fun e s =>
    if s.latch.first && badLimit (limit32 s) then raiseError .invalidArgument s
    else endCandidate ((candidate32 e s).map (BitVec.setWidth 64)) (afterDraw e s))

/-- `BND64` (R125): the first step checks the limit, and every step that goes on tests one candidate. -/
def execBnd64 (s : State) : Host.Outcome State Fault Refusal :=
  whenConfigured s (fun e s =>
    if s.latch.first && badLimit (limit64 s) then raiseError .invalidArgument s
    else endCandidate (candidate64 e s) (afterDraw64 e s))

end Sys2Proof.Machine
end

