-- ==== Sys2Proof/Machine/ConfigSnapshot.lean ====
section
/-! DEFINITION. The configuration and snapshot commands SEED1, SEED2, LOAD, SIZE, SAVE, RESTORE, and the byte form of a snapshot.
`45_config_snapshot.md` R200 to R212; `20_memory.md` R56. -/

namespace Sys2Proof.Machine

/-- The state words of a single-seed construction (R200), `PCG_DEFAULT_INC` an argument. -/
def seedWords1 (defaultInc : Word) (e : Engine) (seed : Word) : Words4 :=
  match e with
  | .pcgXshRr32 => pcgSeed1 defaultInc seed
  | .pcgXshRs32 => pcgSeed1 defaultInc seed
  | .xrs128pp => xrsSeed1 seed
  | .l64x128mix => lxmSeed1 seed

/-- The state words of a two-seed construction (R201); L64X128MIX has none (R188). -/
def seedWords2 (e : Engine) (seed0 seed1 : Word) : Option Words4 :=
  match e with
  | .pcgXshRr32 => some (pcgSeed2 seed0 seed1)
  | .pcgXshRs32 => some (pcgSeed2 seed0 seed1)
  | .xrs128pp => some (xrsSeed2 seed0 seed1)
  | .l64x128mix => none

/-- `SEED1 <type>` (R200). -/
def execSeed1 (ty : Engine) (s : State) : Host.Outcome State Fault Refusal :=
  .next (configure ty (seedWords1 s.pcgDefaultInc ty (seed0Operand s)) s)

/-- `SEED2 <type>` (R201). The type 4 is an illegal encoding, which completes with ILLEGAL_COMMAND (R188, R201). -/
def execSeed2 (ty : Engine) (s : State) : Host.Outcome State Fault Refusal :=
  match seedWords2 ty (seed0Operand s) (seed1Operand s) with
  | some w => .next (configure ty w s)
  | none => .next (raiseError .illegalCommand s)

/-- `LOAD L64X128MIX` (R202). -/
def execLoad (s : State) : Host.Outcome State Fault Refusal :=
  .next (configure .l64x128mix (lxmLoad (loadOperands s)) s)

/-- `SIZE` (R204). -/
def execSize (s : State) : Host.Outcome State Fault Refusal :=
  whenConfigured s (fun e s => complete [(0, (stateSize e).setWidth 64)] s)

/-- The words of `Snapshot()` (R207); the words a two-word engine lacks are 0 (R206). -/
def snapshotWords (e : Engine) (w : Words4) : Words4 :=
  match e with
  | .pcgXshRr32 => pcgSave w
  | .pcgXshRs32 => pcgSave w
  | .xrs128pp => xrsSave w
  | .l64x128mix => lxmSave w

/-- `SAVE` (R206). -/
def execSave (s : State) : Host.Outcome State Fault Refusal :=
  whenConfigured s (fun e s =>
    let v := snapshotWords e s.w
    complete [(0, v.w0), (1, v.w1), (2, v.w2), (3, v.w3)] s)

/-- `CheckTagAndLength(tag, len)` (R210): true where it raises nothing. -/
def tagAndLengthOk (e : Engine) (tag len : BitVec 4) : Bool :=
  decide (tag ≠ 0) && decide (tag = e.code) && decide (len = stateSize e)

/-- The words a snapshot restores, none where its content fails its engine's check (R209, R212). -/
def restoreWords (e : Engine) (v : Words4) : Option Words4 :=
  match e with
  | .pcgXshRr32 => some (pcgRestore v)
  | .pcgXshRs32 => some (pcgRestore v)
  | .xrs128pp => xrsRestore v
  | .l64x128mix => lxmRestore v

/-- `RESTORE <tag>, <len>` (R209): `TYPE` stays, and on every error the state words and the results stay. -/
def execRestore (tag len : BitVec 4) (s : State) : Host.Outcome State Fault Refusal :=
  whenConfigured s (fun e s =>
    if tagAndLengthOk e tag len then
      match restoreWords e (snapshotOperands s) with
      | some w => complete [] { s with w := w }
      | none => raiseError .invalidState s
    else raiseError .invalidState s)

/-- The 8 bytes of a word, most significant first (R56). -/
def wordBytes (v : Word) : List Byte :=
  [v.extractLsb' 56 8, v.extractLsb' 48 8, v.extractLsb' 40 8, v.extractLsb' 32 8,
   v.extractLsb' 24 8, v.extractLsb' 16 8, v.extractLsb' 8 8, v.extractLsb' 0 8]

/-- The word of 8 bytes, most significant first (R56). -/
def wordOfBytes : List Byte → Option Word
  | [b7, b6, b5, b4, b3, b2, b1, b0] => some (b7 ++ b6 ++ b5 ++ b4 ++ b3 ++ b2 ++ b1 ++ b0)
  | _ => none

/-- The first `StateSize(t)` words of a snapshot (R205, R207). -/
def snapshotList (e : Engine) (v : Words4) : List Word := [v.w0, v.w1, v.w2, v.w3].take (stateSize e).toNat

/-- The canonical byte serialization of a snapshot's words (R56); the tag is not part of it (D38). -/
def snapshotBytes (e : Engine) (v : Words4) : List Byte := (snapshotList e v).flatMap wordBytes

/-- The snapshot words a host parses from the byte form of an engine's snapshot (R56), absent words 0. -/
def snapshotOfBytes (e : Engine) (bs : List Byte) : Option Words4 :=
  if bs.length = 8 * (stateSize e).toNat then
    match wordOfBytes (bs.take 8), wordOfBytes ((bs.drop 8).take 8) with
    | some v0, some v1 =>
      if stateSize e = 4 then
        match wordOfBytes ((bs.drop 16).take 8), wordOfBytes ((bs.drop 24).take 8) with
        | some v2, some v3 => some ⟨v0, v1, v2, v3⟩
        | _, _ => none
      else some ⟨v0, v1, 0, 0⟩
    | _, _ => none
  else none

end Sys2Proof.Machine
end

