-- ==== Sys2Proof/Machine/Dispatch.lean ====
section
/-! DEFINITION. One engine step of a decoded command (R35): one arm per command of R72. -/

namespace Sys2Proof.Machine

def exec (i : Instr) (s : State) : Host.Outcome State Fault Refusal :=
  match i with
  | .seed1 ty => Sys2Proof.Machine.execSeed1 ty s
  | .seed2 ty => Sys2Proof.Machine.execSeed2 ty s
  | .load => Sys2Proof.Machine.execLoad s
  | .save => Sys2Proof.Machine.execSave s
  | .restore tag len => Sys2Proof.Machine.execRestore tag len s
  | .size => Sys2Proof.Machine.execSize s
  | .nextw => Sys2Proof.Machine.execNextw s
  | .next32 => Sys2Proof.Machine.execNext32 s
  | .next64 => Sys2Proof.Machine.execNext64 s
  | .bnd32 => Sys2Proof.Machine.execBnd32 s
  | .bnd64 => Sys2Proof.Machine.execBnd64 s

end Sys2Proof.Machine
end

