-- ==== Sys2Proof/Machine/Agents.lean ====
section
/-! DEFINITION. The two agents and the reset input: what each does when it takes a transition, and who takes the next one.
`00_scope.md` R7; `10_state.md` R35; `20_memory.md` R51 to R53, R57, R60; `60_exceptions.md` R243, R248;
`70_reset_and_hazards.md` R270, R281. -/

namespace Sys2Proof.Machine

/-- A step of the engine on the latched command (R35, R243): an illegal word raises ILLEGAL_COMMAND (R77), a legal one is
executed. -/
def engineStep (s : State) : Host.Outcome State Fault Refusal :=
  match decode s.latch.cmd with
  | .illegal _ => .next (raiseError .illegalCommand s)
  | .ok i => exec i s

/-- The engine's turn (R35): it has a step exactly when `BUSY` = 1; otherwise everything is held (R257). -/
def engineTurn (s : State) : Host.Outcome State Fault Refusal :=
  if s.busy then engineStep s else .next s

/-- The host's `rd` (R52, R80): the register's value is the line's result. -/
def hostRead (r : Reg) (s : State) : State :=
  { s with reads := s.reads ++ [readReg s r] }

/-- The host's `wait` (R81): one read of `STATUS`; the wait goes on while the `BUSY` it read is 1. -/
def hostWait (rest : List HostOp) (s : State) : State :=
  if (readReg s .status).getLsbD 0 then s else { s with host := rest }

/-- The host agent's next operation, on a state whose `host` still holds it (R7, R51 to R53, R80, R81). -/
def hostOp (op : HostOp) (rest : List HostOp) (s : State) : Host.Outcome State Fault Refusal :=
  match op with
  | .rd off width =>
    match target off width with
    | .reg r => .next (hostRead r { s with host := rest })
    | .refused => .fault (.accessRefused off width)
    | .elsewhere => .refused (.accessElsewhere off width)
  | .wr off width v =>
    match target off width with
    | .reg r => .next (writeReg r v { s with host := rest })
    | .refused => .fault (.accessRefused off width)
    | .elsewhere => .refused (.accessElsewhere off width)
  | .wait => .next (hostWait rest s)

/-- The host's turn (R7): its next operation; a host with nothing left does nothing (R283). -/
def hostTurn (s : State) : Host.Outcome State Fault Refusal :=
  match s.host with
  | [] => .next s
  | op :: rest => hostOp op rest s

/-- One transition by the given agent, or by the reset input (R7, R270). -/
def takeTurn (t : Turn) (s : State) : Host.Outcome State Fault Refusal :=
  match t with
  | .host => hostTurn s
  | .engine => engineTurn s
  | .reset => .next (resetBlock s)

/-- Who moves when the schedule says no more: the engine while it has a step, so that it is never starved, else the host
(R281; log entry 6). -/
def fairTurn (s : State) : Turn := if s.busy then .engine else .host

/-- The next transition in the total order (R60): the schedule's head, or the fair choice where the schedule is empty. -/
def transition (s : State) : Host.Outcome State Fault Refusal :=
  match s.turns with
  | [] => takeTurn (fairTurn s) s
  | t :: rest => takeTurn t { s with turns := rest }

/-- The command word `v` accepted into the latch, with the operands `ARG0`..`ARG3` hold (R36), and the engine's turn next:
what a host write of `v` to `CMD` leaves on an idle block (log entry 7). -/
def placeCommand (v : Word) (s : State) : State :=
  { acceptCommand v s with turns := .engine :: s.turns }

end Sys2Proof.Machine
end

