-- ==== Sys2Proof/Machine/HostScript.lean ====
section
/-! DEFINITION. The host-script language: its instructions and pseudo-instructions as bus transactions.
`30_encoding.md` R80, R81; `70_reset_and_hazards.md` R283. -/

namespace Sys2Proof.Machine

/-- `wr <REG>, <imm64>` (R80). -/
def wrOp (r : Reg) (v : Word) : HostOp := .wr (regOffset r) 8 v

/-- `rd <REG>` (R80). -/
def rdOp (r : Reg) : HostOp := .rd (regOffset r) 8

/-- `args a0[, a1[, a2[, a3]]]` (R81): one write for each operand given. -/
def argsOps (vs : List Word) : List HostOp :=
  ([Reg.arg0, .arg1, .arg2, .arg3].zip vs).map (fun rv => wrOp rv.1 rv.2)

/-- The bus transactions of a script line (R80, R81). -/
def expandLine : HostLine → List HostOp
  | .wr r v => [wrOp r v]
  | .rd r => [rdOp r]
  | .args vs => argsOps vs
  | .cmd i => [wrOp .cmd (encode i)]
  | .wait => [.wait]
  | .exec i => [wrOp .cmd (encode i), .wait]
  | .ack => [wrOp .status 0x6]

/-- The bus transactions of a host program (R80, R81). -/
def expandScript (ls : List HostLine) : List HostOp := ls.flatMap expandLine

/-- The block with a host program to run, from outside the machine (R7, R80; log entry 7). -/
def withScript (ls : List HostLine) (s : State) : State := { s with host := expandScript ls }

end Sys2Proof.Machine
end

