-- ==== Sys2Proof/Machine/Step.lean ====
section
/-! DEFINITION. One step of the machine, and how a command is put where the next step runs it. -/

namespace Sys2Proof.Machine

/-- One step: one transition of the total order (R7, R60). -/
def step (s : State) : Host.Outcome State Fault Refusal := transition s

/-- The command whose low `nbits` bits are `w`, accepted into the latch: the block fetches no instruction, and the latch is
where the engine takes its command from (R34, R36, R64; log entry 7). -/
def State.withFetchWord (s : State) (nbits w : Nat) : State :=
  placeCommand (BitVec.ofNat 64 (w % 2 ^ nbits)) s

end Sys2Proof.Machine
end

