-- ==== Sys2Proof/Safety.lean ====
section
/-! DEFINITION. The terms claims are stated in: the invariants of the engine state and of a running command, what a
completion is, what it leaves alone, when a run is over, and the host's duty. `10_state.md` R31, R34 to R37;
`60_exceptions.md` R244; `70_reset_and_hazards.md` R274, R283. -/

namespace Sys2Proof.Machine

/-- The invariant of the engine state (R31), with the unused words 0 (R30): an odd PCG increment, a non-zero XRS128PP
sub-state, a non-zero L64X128MIX sub-state with an odd addend, and zero words while nothing is configured (R38). -/
def EngineOk (type : Option Engine) (w : Words4) : Prop :=
  match type with
  | none => w = Words4.zero
  | some .pcgXshRr32 => w.w1.getLsbD 0 = true ∧ w.w2 = 0 ∧ w.w3 = 0
  | some .pcgXshRs32 => w.w1.getLsbD 0 = true ∧ w.w2 = 0 ∧ w.w3 = 0
  | some .xrs128pp => ¬(w.w0 = 0 ∧ w.w1 = 0) ∧ w.w2 = 0 ∧ w.w3 = 0
  | some .l64x128mix => ¬(w.w2 = 0 ∧ w.w3 = 0) ∧ w.w0.getLsbD 0 = true

/-- The command in the latch is past its checks and is a bounded command with a valid limit (R126, R129). -/
def InLoop (s : State) : Prop :=
  s.type ≠ none ∧
    ((decode s.latch.cmd = .ok .bnd32 ∧ 0 < (limit32 s).toInt) ∨
      (decode s.latch.cmd = .ok .bnd64 ∧ 0 < (limit64 s).toInt))

/-- The invariant of a running command: `DONE` is 0 (R36, R37), no draw is made before the first step (R36), and only a
bounded command past its checks is still running after it (R35, R126, R243). -/
def LatchOk (s : State) : Prop :=
  s.busy = true →
    s.done = false ∧ (s.latch.first = true → s.latch.n = 0) ∧ (s.latch.first = false → InLoop s)

/-- The invariant of the machine. -/
def State.Inv (s : State) : Prop := EngineOk s.type s.w ∧ LatchOk s

/-- A command has been accepted and its first engine step has not run (R36): the state in which R243's checks are made. -/
def JustAccepted (s : State) : Prop := s.busy = true ∧ s.latch.first = true ∧ s.latch.n = 0

/-- A configuring command (R203). -/
def configuring : Instr → Bool
  | .seed1 _ => true
  | .seed2 _ => true
  | .load => true
  | .save => false
  | .restore _ _ => false
  | .size => false
  | .nextw => false
  | .next32 => false
  | .next64 => false
  | .bnd32 => false
  | .bnd64 => false

/-- A bounded command (R35). -/
def boundedCommand : Instr → Bool
  | .seed1 _ => false
  | .seed2 _ => false
  | .load => false
  | .save => false
  | .restore _ _ => false
  | .size => false
  | .nextw => false
  | .next32 => false
  | .next64 => false
  | .bnd32 => true
  | .bnd64 => true

/-- What no engine step touches: `ARG0`..`ARG3` (R22), `CTRL` and `OVR` (R33, R244), the parameter, and the record of the
agents. -/
def SameOutside (s t : State) : Prop :=
  t.arg = s.arg ∧ t.ie = s.ie ∧ t.ovr = s.ovr ∧ t.pcgDefaultInc = s.pcgDefaultInc ∧ t.host = s.host ∧
    t.turns = s.turns ∧ t.reads = s.reads

/-- A successful completion with `CNT` = `cnt` (R37), but for the results and the engine state a command names. -/
def Completed (s t : State) (cnt : Word) : Prop :=
  t.busy = false ∧ t.done = true ∧ t.err = .ok ∧ t.cnt = cnt ∧ SameOutside s t

/-- An error completion with the given code, whole (R244): the engine state and the results are unchanged too. -/
def Failed (s t : State) (code : ErrCode) : Prop :=
  t.busy = false ∧ t.done = true ∧ t.err = code ∧ t.cnt = 0 ∧ t.type = s.type ∧ t.w = s.w ∧ t.res = s.res ∧
    SameOutside s t

/-- A rejected candidate's step (R126): the command goes on, `L_FIRST` is 0, and only the engine state and the draw count
have moved. -/
def WentOn (s t : State) (draws : Word) : Prop :=
  t.busy = s.busy ∧ t.done = s.done ∧ t.err = s.err ∧ t.cnt = s.cnt ∧ t.type = s.type ∧ t.res = s.res ∧
    t.latch.cmd = s.latch.cmd ∧ t.latch.args = s.latch.args ∧ t.latch.first = false ∧
    t.latch.n = s.latch.n + draws ∧ SameOutside s t

/-- The content checks of R212: what makes the words of a snapshot INVALID_STATE for its engine. -/
def BadContent (e : Engine) (v : Words4) : Prop :=
  match e with
  | .pcgXshRr32 => False
  | .pcgXshRs32 => False
  | .xrs128pp => v.w0 = 0 ∧ v.w1 = 0
  | .l64x128mix => (v.w2 = 0 ∧ v.w3 = 0) ∨ v.w0.getLsbD 0 = false

/-- What makes a `RESTORE` INVALID_STATE on the engine `e`: its tag, its length (R210) or its content (R212). -/
def BadRestore (e : Engine) (tag len : BitVec 4) (v : Words4) : Prop :=
  tag = 0 ∨ tag ≠ e.code ∨ len ≠ stateSize e ∨ BadContent e v

/-- Draws of one candidate or one 64-bit value (R104, R126): two on a 32-bit engine. -/
def drawsOf64 (e : Engine) : Word := if width e = 32 then 2 else 1

/-- The end of a run (R283): the host has nothing left to do and no command runs. -/
def Quiescent (s : State) : Prop := s.host = [] ∧ s.busy = false

/-- The host's duty at its next operation (R274): it offers a command only while `BUSY` = 0. -/
def KeepsIssueDuty (s : State) : Prop :=
  ∀ width v rest, s.host = .wr (regOffset .cmd) width v :: rest → s.busy = false

end Sys2Proof.Machine
end

