-- ==== Sys2Proof/Certificates/Slice0/Obligations.lean ====
section
/-! DEFINITION. The statements for the provers. Each docstring names the rule of the spec that the statement formalises. -/

open Sys2Proof Sys2Proof.Machine

/-! ## Reset -/

/-- R38: the state after reset. The latch, which the rule leaves unspecified, is not spoken of. -/
def Obligations.ResetHoldsTheSpecifiedValues : Prop :=
  State.reset.ie = false ∧ State.reset.busy = false ∧ State.reset.done = false ∧ State.reset.ovr = false ∧
    State.reset.err.code = 0 ∧ typeCode State.reset.type = 0 ∧ sizeCode State.reset.type = 0 ∧
    State.reset.arg = ⟨0, 0, 0, 0⟩ ∧ State.reset.res = ⟨0, 0, 0, 0⟩ ∧ State.reset.cnt = 0 ∧
    State.reset.w = ⟨0, 0, 0, 0⟩ ∧ irq State.reset = false ∧ memRead State.reset 0 = some 0x000F000150524E47 ∧
    ∀ off, 0 < off → off < 0x80 → off % 8 = 0 → memRead State.reset off = some 0

/-- R270: the reset input, in one transition, from any state and with a command in flight or not. Its place in the schedule
is the model's choice (log entry 19). -/
def Obligations.ResetInputAbandonsTheRunningCommand : Prop :=
  ∀ (s : State) (rest : List Turn), s.turns = .reset :: rest →
    ∃ t, step s = .next t ∧ t.ie = false ∧ t.busy = false ∧ t.done = false ∧ t.ovr = false ∧ t.err = .ok ∧
      t.arg = ⟨0, 0, 0, 0⟩ ∧ t.res = ⟨0, 0, 0, 0⟩ ∧ t.cnt = 0 ∧ t.type = none ∧ t.w = ⟨0, 0, 0, 0⟩ ∧
      irq t = false ∧ memRead t 0 = some 0x000F000150524E47

/-! ## The register space -/

/-- R52: what a read returns at each offset, and that it has no side effect on the block. The host's place in its script and
its record of what it read, which a host read does move, are the model's own fields (log entry 5). -/
def Obligations.ReadsReturnTheRegisterMap : Prop :=
  ∀ s : State,
    memRead s 0x00 = some 0x000F000150524E47 ∧
    memRead s 0x08 = some (if s.ie then 1 else 0) ∧
    (∃ v, memRead s 0x10 = some v ∧
      v.toNat = s.busy.toNat + 2 * s.done.toNat + 4 * s.ovr.toNat + 16 * s.err.code.toNat
        + 256 * (typeCode s.type).toNat + 4096 * (sizeCode s.type).toNat) ∧
    memRead s 0x18 = some 0 ∧
    memRead s 0x20 = some s.arg.w0 ∧ memRead s 0x28 = some s.arg.w1 ∧
    memRead s 0x30 = some s.arg.w2 ∧ memRead s 0x38 = some s.arg.w3 ∧
    memRead s 0x40 = some s.res.w0 ∧ memRead s 0x48 = some s.res.w1 ∧
    memRead s 0x50 = some s.res.w2 ∧ memRead s 0x58 = some s.res.w3 ∧
    memRead s 0x60 = some s.cnt ∧
    memRead s 0x68 = some 0 ∧ memRead s 0x70 = some 0 ∧ memRead s 0x78 = some 0 ∧
    ∀ (r : Reg) (rest : List HostOp), ∃ v, memRead s (regOffset r) = some v ∧
      hostOp (.rd (regOffset r) 8) rest s = .next { s with host := rest, reads := s.reads ++ [v] }

/-- R53: what a write does at each offset, the whole of the state. -/
def Obligations.WritesDoOnlyWhatTheirRegisterSays : Prop :=
  ∀ (s : State) (v : Word),
    memWrite 0x00 v s = some s ∧
    memWrite 0x08 v s = some { s with ie := v.getLsbD 0 } ∧
    memWrite 0x10 v s = some { s with
      done := if v.getLsbD 1 then false else s.done, ovr := if v.getLsbD 2 then false else s.ovr } ∧
    memWrite 0x18 v s = some (if s.busy then { s with ovr := true }
      else { s with latch := ⟨v, s.arg, true, 0⟩, done := false, busy := true }) ∧
    memWrite 0x20 v s = some { s with arg := { s.arg with w0 := v } } ∧
    memWrite 0x28 v s = some { s with arg := { s.arg with w1 := v } } ∧
    memWrite 0x30 v s = some { s with arg := { s.arg with w2 := v } } ∧
    memWrite 0x38 v s = some { s with arg := { s.arg with w3 := v } } ∧
    ∀ off ∈ [0x40, 0x48, 0x50, 0x58, 0x60, 0x68, 0x70, 0x78], memWrite off v s = some s

/-- R36: a write to `CMD` is accepted on an idle block, sets `OVR` and nothing else on a busy one, and the encoding is
checked only in the engine's first step. -/
def Obligations.CommandOfferIsAcceptedOrOverruns : Prop :=
  ∀ (s : State) (v : Word),
    (s.busy = false → ∃ t, memWrite 0x18 v s = some t ∧
      t.latch.cmd = v ∧ t.latch.args = s.arg ∧ t.latch.first = true ∧ t.latch.n = 0 ∧
      t.done = false ∧ t.busy = true ∧
      t.err = s.err ∧ t.res = s.res ∧ t.cnt = s.cnt ∧ t.type = s.type ∧ t.w = s.w ∧ SameOutside s t ∧
      ∀ r, decode v = .illegal r → ∃ u, engineStep t = .next u ∧ Failed t u .illegalCommand) ∧
    (s.busy = true → memWrite 0x18 v s = some { s with ovr := true })

/-- Which accesses have a step, from R51: only 8-byte accesses at a multiple of 8 below 0x80. R51 says no more than that the
host agent is stuck on any other access within the space, and that one beyond it is not to this block. That the whole step
then stops by the fault `accessRefused` (log entry 8), and that an access at 0x80 or above, whatever its width, is the refusal
`accessElsewhere` (log entry 9), are the model's choice. -/
def Obligations.UndefinedAccessesHaveNoStep : Prop :=
  ∀ (s : State) (later : List Turn) (off width : Nat) (v : Word) (rest : List HostOp),
    s.turns = .host :: later → (s.host = .rd off width :: rest ∨ s.host = .wr off width v :: rest) →
      (off < 0x80 → ¬(width = 8 ∧ off % 8 = 0) → step s = .fault (.accessRefused off width)) ∧
      (0x80 ≤ off → step s = .refused (.accessElsewhere off width)) ∧
      (off < 0x80 → width = 8 → off % 8 = 0 → ∃ t, step s = .next t)

/-- R247: the level of `irq`, and the events that raise and clear it. -/
def Obligations.IrqIsDoneAndEnable : Prop :=
  ∀ (s t : State) (v : Word),
    irq s = (s.done && s.ie) ∧
    (memWrite 0x08 v s = some t → irq t = (s.done && v.getLsbD 0)) ∧
    (memWrite 0x10 v s = some t → v.getLsbD 1 = true → irq t = false) ∧
    (memWrite 0x18 v s = some t → s.busy = false → irq t = false) ∧
    irq (resetBlock s) = false ∧
    (s.busy = true → engineStep s = .next t → t.busy = false → irq t = s.ie)

/-- `STATUS.OVR` (R26, R33): once set, only a write of 1 to its bit or the reset input clears it. -/
def Obligations.OverrunIsSticky : Prop :=
  ∀ s t : State, step s = .next t → s.ovr = true → t.ovr = false →
    s.turns.head? = some .reset ∨ ∃ v rest, s.host = .wr 0x10 8 v :: rest ∧ v.getLsbD 2 = true

/-! ## Encoding -/

/-- R71, R72, R78, R79: the decoder reads back every command that has an encoding, with every operand. -/
def Obligations.DecodeOfEncodeIsTheCommand : Prop :=
  ∀ i : Instr, i.wf = true → decode (encode i) = .ok i

/-- R77, R79: a word that decodes is the one encoding of a command that has one. -/
def Obligations.LegalWordsHaveOneMeaning : Prop :=
  ∀ (v : Word) (i : Instr), decode v = .ok i → i.wf = true ∧ encode i = v

/-- R77, in arithmetic on the word's number: the seven conditions, and what an illegal command does. -/
def Obligations.IllegalWordsAreExactlyTheSevenCases : Prop :=
  (∀ v : Word,
    (∃ r, decode v = .illegal r) ↔
      (v.toNat / 65536 ≠ 0 ∨
        v.toNat % 256 ∉ [0x01, 0x02, 0x03, 0x04, 0x05, 0x06, 0x10, 0x11, 0x12, 0x20, 0x21] ∨
        (v.toNat % 256 = 0x01 ∧ v.toNat / 256 % 16 ∉ [1, 2, 3, 4]) ∨
        (v.toNat % 256 = 0x02 ∧ v.toNat / 256 % 16 ∉ [1, 2, 3]) ∨
        (v.toNat % 256 = 0x03 ∧ v.toNat / 256 % 16 ≠ 4) ∨
        (v.toNat % 256 ∈ [0x01, 0x02, 0x03] ∧ v.toNat / 4096 % 16 ≠ 0) ∨
        (v.toNat % 256 ∈ [0x04, 0x06, 0x10, 0x11, 0x12, 0x20, 0x21] ∧ v.toNat / 256 % 256 ≠ 0))) ∧
  ∀ (s : State) (r : IllegalReason), s.busy = true → decode s.latch.cmd = .illegal r →
    ∃ t, engineStep s = .next t ∧ Failed s t .illegalCommand

/-- R79 and vector V26, word by word. -/
def Obligations.SpecWordsDecodeAsListed : Prop :=
  decode 0x101 = .ok (.seed1 .pcgXshRr32) ∧ decode 0x201 = .ok (.seed1 .pcgXshRs32) ∧
    decode 0x301 = .ok (.seed1 .xrs128pp) ∧ decode 0x401 = .ok (.seed1 .l64x128mix) ∧
    decode 0x102 = .ok (.seed2 .pcgXshRr32) ∧ decode 0x202 = .ok (.seed2 .pcgXshRs32) ∧
    decode 0x302 = .ok (.seed2 .xrs128pp) ∧ decode 0x403 = .ok .load ∧ decode 0x004 = .ok .save ∧
    decode 0x2105 = .ok (.restore 1 2) ∧ decode 0x4405 = .ok (.restore 4 4) ∧ decode 0xF05 = .ok (.restore 15 0) ∧
    decode 0x006 = .ok .size ∧ decode 0x010 = .ok .nextw ∧ decode 0x011 = .ok .next32 ∧ decode 0x012 = .ok .next64 ∧
    decode 0x020 = .ok .bnd32 ∧ decode 0x021 = .ok .bnd64 ∧
    decode 0x402 = .illegal .seed2Type ∧ decode 0x1101 = .illegal .configLength ∧
    decode 0x10010 = .illegal .reservedBits ∧ decode 0 = .illegal .reservedOpcode

/-- From R79: the assembler reads back the syntax of every command that has an encoding, and seven lines assemble to their
words. Five of them are the rule's own. The model's, not the rule's: that `RESTORE NONE, 4` is 0x4005, which is deduced
from the rule's formula and its tag `NONE` against the word V18 prints (log entry 15), and `RESTORE 3, 2`, which the formula
gives (the rule lists 0x2305 under the engine's name). How a number and a tag are spelled is the model's choice (log
entry 21). -/
def Obligations.AssemblerReadsItsOwnSyntax : Prop :=
  (∀ i : Instr, i.wf = true → assemble i.asm.1 i.asm.2 = some i) ∧
    (assemble "SEED1" ["XRS128PP"]).map encode = some 0x301 ∧
    (assemble "SEED2" ["PCG_XSH_RS_32"]).map encode = some 0x202 ∧
    (assemble "LOAD" ["L64X128MIX"]).map encode = some 0x403 ∧
    (assemble "RESTORE" ["PCG_XSH_RR_32", "2"]).map encode = some 0x2105 ∧
    (assemble "RESTORE" ["L64X128MIX", "4"]).map encode = some 0x4405 ∧
    (assemble "RESTORE" ["NONE", "4"]).map encode = some 0x4005 ∧
    (assemble "RESTORE" ["3", "2"]).map encode = some 0x2305 ∧
    assemble "SEED2" ["L64X128MIX"] = none

/-! ## Steps, checks and completions -/

/-- R35: when the latched word decodes to a command, the engine's turn is that command's step, whether the schedule gives
it the turn or is empty; while idle the engine has none. The schedule, the engine's turn where it is empty, and that an idle
engine's turn holds the state are the model's choice (log entry 6); so is the latch as the place of the fetched instruction
(log entry 7). -/
def Obligations.StepRunsTheLatchedCommand : Prop :=
  ∀ (s : State) (i : Instr),
    (s.busy = true → decode s.latch.cmd = .ok i → i.wf = true →
      (s.turns = [] → step s = exec i s) ∧
      (∀ rest, s.turns = .engine :: rest → step s = exec i { s with turns := rest })) ∧
    (s.busy = false → ∀ rest, s.turns = .engine :: rest → step s = .next { s with turns := rest })

/-- R35: every command but `BND32` and `BND64` ends in the step it is given, with `DONE` set; those two end in it or go on
with `L_FIRST` = 0. -/
def Obligations.OnlyBoundedCommandsTakeMoreSteps : Prop :=
  ∀ (i : Instr) (s : State), s.busy = true →
    ∃ t, exec i s = .next t ∧
      (boundedCommand i = false → t.busy = false) ∧
      (t.busy = false → t.done = true) ∧
      (t.busy = true → t.latch.first = false ∧ t.latch.cmd = s.latch.cmd ∧ t.latch.args = s.latch.args)

/-- R243: the checks of the first step, in their order, that nothing else is an error, and that no later step fails. -/
def Obligations.ChecksRunInTheSpecifiedOrder : Prop :=
  (∀ s : State, s.busy = true → s.latch.first = false → InLoop s →
    ∃ t, engineStep s = .next t ∧ (t.busy = false → t.err = .ok)) ∧
  ∀ s : State, JustAccepted s →
    (∀ r, decode s.latch.cmd = .illegal r → ∃ t, engineStep s = .next t ∧ Failed s t .illegalCommand) ∧
    (∀ i, decode s.latch.cmd = .ok i →
      (configuring i = false → s.type = none → ∃ t, engineStep s = .next t ∧ Failed s t .notConfigured) ∧
      (∀ e, s.type = some e →
        (i = .bnd32 → (s.latch.args.w0.extractLsb' 0 32).toInt ≤ 0 →
          ∃ t, engineStep s = .next t ∧ Failed s t .invalidArgument) ∧
        (i = .bnd64 → s.latch.args.w0.toInt ≤ 0 →
          ∃ t, engineStep s = .next t ∧ Failed s t .invalidArgument) ∧
        (∀ tag len, i = .restore tag len → BadRestore e tag len s.latch.args →
          ∃ t, engineStep s = .next t ∧ Failed s t .invalidState)) ∧
      (¬(configuring i = false ∧ s.type = none) →
        ¬(i = .bnd32 ∧ (s.latch.args.w0.extractLsb' 0 32).toInt ≤ 0) →
        ¬(i = .bnd64 ∧ s.latch.args.w0.toInt ≤ 0) →
        (∀ e tag len, s.type = some e → i = .restore tag len → ¬BadRestore e tag len s.latch.args) →
        ∃ t, engineStep s = .next t ∧ (t.busy = false → t.err = .ok) ∧ (t.busy = true → t.latch.first = false)))

/-- R244: an error completion writes `ERR`, `CNT`, `DONE` and `BUSY` and nothing else the rule names, and `irq` follows. -/
def Obligations.ErrorCompletionChangesNothingElse : Prop :=
  ∀ s t : State, s.busy = true → engineStep s = .next t → t.busy = false → t.err ≠ .ok →
    Failed s t t.err ∧ irq t = s.ie

/-- R29: while `TYPE` = NONE every command but the configuring ones ends with NOT_CONFIGURED and changes nothing else. -/
def Obligations.UnconfiguredCommandsReportIt : Prop :=
  ∀ (i : Instr) (s : State), configuring i = false → s.type = none →
    ∃ t, exec i s = .next t ∧ Failed s t .notConfigured

/-! ## Draw commands -/

/-- R102: `NEXTW`, with its encoding, its errors and its example; every word can come out of a 64-bit engine. -/
def Obligations.NextwReturnsOneNativeWord : Prop :=
  encode .nextw = 0x010 ∧
  (∀ v : Word, opField v = 0x10 → v ≠ 0x010 → ∃ r, decode v = .illegal r) ∧
  (∀ s : State, s.type = none → ∃ t, exec .nextw s = .next t ∧ Failed s t .notConfigured) ∧
  (∀ (s : State) (e : Engine), JustAccepted s → s.type = some e →
    ∃ t, exec .nextw s = .next t ∧ Completed s t 1 ∧ t.type = s.type ∧ t.w = (nextWord e s.w).2 ∧
      t.res = { s.res with w0 := (nextWord e s.w).1 } ∧
      ((e = .pcgXshRr32 ∨ e = .pcgXshRs32) → t.res.w0.toNat < 2 ^ 32)) ∧
  (∀ (e : Engine) (v : Word), e = .xrs128pp ∨ e = .l64x128mix →
    ∃ w, EngineOk (some e) w ∧ (nextWord e w).1 = v) ∧
  (nextWord .pcgXshRr32 (pcgSeed2 0x012DE1BABB3C4104 0xC8161B4202294965)).1 = 0x00000000E860DD24

/-- R103: `NEXT32`, with its encoding, its errors and its example. -/
def Obligations.Next32ReturnsLowOrHighHalf : Prop :=
  encode .next32 = 0x011 ∧
  (∀ v : Word, opField v = 0x11 → v ≠ 0x011 → ∃ r, decode v = .illegal r) ∧
  (∀ s : State, s.type = none → ∃ t, exec .next32 s = .next t ∧ Failed s t .notConfigured) ∧
  (∀ (s : State) (e : Engine), JustAccepted s → s.type = some e →
    ∃ t, exec .next32 s = .next t ∧ Completed s t 1 ∧ t.type = s.type ∧ t.w = (nextWord e s.w).2 ∧
      t.res.w1 = s.res.w1 ∧ t.res.w2 = s.res.w2 ∧ t.res.w3 = s.res.w3 ∧
      t.res.w0.toNat = (if e = .pcgXshRr32 ∨ e = .pcgXshRs32 then (nextWord e s.w).1.toNat % 2 ^ 32
        else (nextWord e s.w).1.toNat / 2 ^ 32)) ∧
  (∀ (s : State) (e : Engine), s.type = some e → (e = .pcgXshRr32 ∨ e = .pcgXshRs32) →
    exec .next32 s = exec .nextw s) ∧
  (nextWord .xrs128pp ⟨1, 2, 0, 0⟩).1 = 0x0000000000060001

/-- R104: `NEXT64`, with its encoding, its errors and its example. -/
def Obligations.Next64PutsTheFirstDrawHigh : Prop :=
  encode .next64 = 0x012 ∧
  (∀ v : Word, opField v = 0x12 → v ≠ 0x012 → ∃ r, decode v = .illegal r) ∧
  (∀ s : State, s.type = none → ∃ t, exec .next64 s = .next t ∧ Failed s t .notConfigured) ∧
  (∀ (s : State) (e : Engine), JustAccepted s → s.type = some e → (e = .pcgXshRr32 ∨ e = .pcgXshRs32) →
    ∃ t, exec .next64 s = .next t ∧ Completed s t 2 ∧ t.type = s.type ∧
      t.w = (nextWord e (nextWord e s.w).2).2 ∧
      t.res.w1 = s.res.w1 ∧ t.res.w2 = s.res.w2 ∧ t.res.w3 = s.res.w3 ∧
      t.res.w0.toNat = (nextWord e s.w).1.toNat % 2 ^ 32 * 2 ^ 32
        + (nextWord e (nextWord e s.w).2).1.toNat % 2 ^ 32) ∧
  (∀ (s : State) (e : Engine), JustAccepted s → s.type = some e → (e = .xrs128pp ∨ e = .l64x128mix) →
    ∃ t, exec .next64 s = .next t ∧ Completed s t 1 ∧ t.type = s.type ∧ t.w = (nextWord e s.w).2 ∧
      t.res = { s.res with w0 := (nextWord e s.w).1 }) ∧
  (∀ s : State, s.type = some .pcgXshRr32 → s.w = pcgSeed2 0x012DE1BABB3C4104 0xC8161B4202294965 →
    drawn64 .pcgXshRr32 s = 0xE860DD2415D339C0)

/-! ## Bounded commands -/

/-- R124: `BND32`: the limit check of the first step, and a candidate step's end, accepted or rejected, on every engine. -/
def Obligations.Bnd32TestsOneCandidateAStep : Prop :=
  encode .bnd32 = 0x020 ∧
  modAccept (0xE860DD24 : Half) 0x40000001 = none ∧ modAccept (0x15D339C0 : Half) 0x40000001 = some 0x0AE99CE0 ∧
  (∀ v : Word, opField v = 0x20 → v ≠ 0x020 → ∃ r, decode v = .illegal r) ∧
  (∀ s : State, s.type = none → ∃ t, exec .bnd32 s = .next t ∧ Failed s t .notConfigured) ∧
  (∀ (s : State) (e : Engine), JustAccepted s → s.type = some e → (s.latch.args.w0.extractLsb' 0 32).toInt ≤ 0 →
    ∃ t, exec .bnd32 s = .next t ∧ Failed s t .invalidArgument) ∧
  ∀ (s : State) (e : Engine) (l c : Half), s.busy = true → s.type = some e →
    l = s.latch.args.w0.extractLsb' 0 32 → 0 < l.toInt → c = (nextWord e s.w).1.extractLsb' 0 32 →
    ∃ t, exec .bnd32 s = .next t ∧ t.type = s.type ∧ t.w = (nextWord e s.w).2 ∧
      (∀ v : Half,
        ((e = .pcgXshRr32 ∨ e = .pcgXshRs32) ∧ l &&& (l - 1) = 0 ∧ v = c &&& (l - 1)) ∨
        ((e = .pcgXshRr32 ∨ e = .pcgXshRs32) ∧ l &&& (l - 1) ≠ 0 ∧ modAccept c l = some v) ∨
        ((e = .xrs128pp ∨ e = .l64x128mix) ∧ lemireAccept (nextWord e s.w).1 l = some v) →
        Completed s t (s.latch.n + 1) ∧ t.res = { s.res with w0 := v.setWidth 64 }) ∧
      (((e = .pcgXshRr32 ∨ e = .pcgXshRs32) ∧ l &&& (l - 1) ≠ 0 ∧ modAccept c l = none) ∨
        ((e = .xrs128pp ∨ e = .l64x128mix) ∧ lemireAccept (nextWord e s.w).1 l = none) →
        WentOn s t 1)

/-- R125: `BND64`: the limit check of the first step, and a candidate step's end, accepted or rejected, on every engine. -/
def Obligations.Bnd64TestsOneCandidateAStep : Prop :=
  encode .bnd64 = 0x021 ∧ modAccept (0x60001 : Word) 3 = some 0 ∧
  (∀ v : Word, opField v = 0x21 → v ≠ 0x021 → ∃ r, decode v = .illegal r) ∧
  (∀ s : State, s.type = none → ∃ t, exec .bnd64 s = .next t ∧ Failed s t .notConfigured) ∧
  (∀ (s : State) (e : Engine), JustAccepted s → s.type = some e → s.latch.args.w0.toInt ≤ 0 →
    ∃ t, exec .bnd64 s = .next t ∧ Failed s t .invalidArgument) ∧
  ∀ (s : State) (e : Engine) (l c : Word) (w : Words4), s.busy = true → s.type = some e →
    l = s.latch.args.w0 → 0 < l.toInt →
    (((e = .pcgXshRr32 ∨ e = .pcgXshRs32) ∧
        c = (nextWord e s.w).1.extractLsb' 0 32 ++ (nextWord e (nextWord e s.w).2).1.extractLsb' 0 32 ∧
        w = (nextWord e (nextWord e s.w).2).2) ∨
      ((e = .xrs128pp ∨ e = .l64x128mix) ∧ c = (nextWord e s.w).1 ∧ w = (nextWord e s.w).2)) →
    ∃ t, exec .bnd64 s = .next t ∧ t.type = s.type ∧ t.w = w ∧
      (l &&& (l - 1) = 0 →
        Completed s t (s.latch.n + drawsOf64 e) ∧ t.res = { s.res with w0 := c &&& (l - 1) }) ∧
      (∀ v, l &&& (l - 1) ≠ 0 → modAccept c l = some v →
        Completed s t (s.latch.n + drawsOf64 e) ∧ t.res = { s.res with w0 := v }) ∧
      (l &&& (l - 1) ≠ 0 → modAccept c l = none → WentOn s t (drawsOf64 e))

/-- R121, at N = 32 and N = 64, in exact arithmetic: the value, and that a candidate is accepted exactly when its shifted
value lies below the largest multiple of the limit in the range. -/
def Obligations.ModuloSchemeAcceptsBelowTheLargestMultiple : Prop :=
  (∀ c l : Half, 0 < l.toInt →
    modAccept c l = if c.toNat / 2 < 2 ^ 31 / l.toNat * l.toNat
      then some (BitVec.ofNat 32 (c.toNat / 2 % l.toNat)) else none) ∧
  (∀ c l : Word, 0 < l.toInt →
    modAccept c l = if c.toNat / 2 < 2 ^ 63 / l.toNat * l.toNat
      then some (BitVec.ofNat 64 (c.toNat / 2 % l.toNat)) else none)

/-- R122: a power-of-two limit takes the low bits of its candidate and never rejects. -/
def Obligations.PowerOfTwoLimitsKeepTheLowBits : Prop :=
  (∀ c l : Half, 0 < l.toInt → l &&& (l - 1) = 0 → generalAccept c l = some (c &&& (l - 1))) ∧
  (∀ c l : Word, 0 < l.toInt → l &&& (l - 1) = 0 → generalAccept c l = some (c &&& (l - 1))) ∧
  (∀ (c : Half) (k : Nat), k < 31 →
    generalAccept c (BitVec.ofNat 32 (2 ^ k)) = some (BitVec.ofNat 32 (c.toNat % 2 ^ k))) ∧
  (∀ (c : Word) (k : Nat), k < 63 →
    generalAccept c (BitVec.ofNat 64 (2 ^ k)) = some (BitVec.ofNat 64 (c.toNat % 2 ^ k)))

/-- R123, in exact arithmetic: Lemire's test and value, and that a limit that divides 2^32 never rejects. -/
def Obligations.LemireSchemeIsExact : Prop :=
  ∀ (w : Word) (l : Half), 0 < l.toInt →
    (lemireAccept w l = if w.toNat / 2 ^ 32 * l.toNat % 2 ^ 32 < 2 ^ 32 % l.toNat then none
      else some (BitVec.ofNat 32 (w.toNat / 2 ^ 32 * l.toNat / 2 ^ 32))) ∧
    (2 ^ 32 % l.toNat = 0 → lemireAccept w l ≠ none)

/-- R129: no result of a bounded command is negative or at least its limit. -/
def Obligations.BoundedResultsAreBelowTheLimit : Prop :=
  ∀ (s t : State) (e : Engine), s.busy = true → s.type = some e → t.busy = false → t.err = .ok →
    (exec .bnd32 s = .next t → 0 < (limit32 s).toInt → t.res.w0.toNat < (limit32 s).toNat) ∧
    (exec .bnd64 s = .next t → 0 < (limit64 s).toInt → t.res.w0.toNat < (limit64 s).toNat)

/-- R125: on a PCG engine `BND64` draws in pairs, so its draw count stays even and so is the `CNT` it leaves. -/
def Obligations.Bnd64OnPcgDrawsInPairs : Prop :=
  ∀ (s t : State) (e : Engine), s.busy = true → s.type = some e → width e = 32 → s.latch.n.getLsbD 0 = false →
    exec .bnd64 s = .next t →
      (t.busy = true → t.latch.n.getLsbD 0 = false) ∧ (t.busy = false → t.cnt.getLsbD 0 = false)

/-- R282: some candidate is accepted for every valid limit: the modulo scheme accepts 0, Lemire's the word
0xFFFFFFFF00000000. -/
def Obligations.SomeCandidateIsAlwaysAccepted : Prop :=
  (∀ l : Half, 0 < l.toInt → modAccept 0 l = some 0) ∧
    (∀ l : Word, 0 < l.toInt → modAccept 0 l = some 0) ∧
    (∀ l : Half, 0 < l.toInt → lemireAccept 0xFFFFFFFF00000000 l ≠ none) ∧
    xshRr 0 = 0 ∧ xshRs 0 = 0

/-! ## Configuration commands -/

/-- R200: `SEED1` on every engine: the words by the engines' seeding rules, for every value of `PCG_DEFAULT_INC`. -/
def Obligations.Seed1ConfiguresFromOneSeed : Prop :=
  encode (.seed1 .pcgXshRr32) = 0x101 ∧ encode (.seed1 .pcgXshRs32) = 0x201 ∧
  encode (.seed1 .xrs128pp) = 0x301 ∧ encode (.seed1 .l64x128mix) = 0x401 ∧
  (∀ v : Word, opField v = 0x01 → v ∉ [0x101, 0x201, 0x301, 0x401] → ∃ r, decode v = .illegal r) ∧
  (∀ (s : State) (e : Engine) (seed inc : Word), JustAccepted s → seed = s.latch.args.w0 →
    inc = s.pcgDefaultInc ||| 1 →
    ∃ t, exec (.seed1 e) s = .next t ∧ Completed s t 0 ∧ t.res = s.res ∧ t.type = some e ∧
      (e = .pcgXshRr32 ∨ e = .pcgXshRs32 → t.w = ⟨(seed + inc) * 0x5851F42D4C957F2D + inc, inc, 0, 0⟩) ∧
      (e = .xrs128pp →
        t.w = ⟨rrmxmx (seed + 0x9E3779B97F4A7C15), rrmxmx (seed + 0x3C6EF372FE94F82A), 0, 0⟩) ∧
      (e = .l64x128mix →
        t.w = ⟨rrmxmx seed ||| 1, seed, stafford13 (seed + 0x9E3779B97F4A7C15),
          stafford13 (seed + 0x3C6EF372FE94F82A)⟩)) ∧
  lxmSeed1 0 = ⟨1, 0, 0xE220A8397B1DCDAF, 0x6E789E6AA1B965F4⟩

/-- R201: `SEED2` on its three engines, with the corner cases of the XRS128PP seeds. -/
def Obligations.Seed2ConfiguresFromTwoSeeds : Prop :=
  encode (.seed2 .pcgXshRr32) = 0x102 ∧ encode (.seed2 .pcgXshRs32) = 0x202 ∧ encode (.seed2 .xrs128pp) = 0x302 ∧
  (∀ v : Word, opField v = 0x02 → v ∉ [0x102, 0x202, 0x302] → ∃ r, decode v = .illegal r) ∧
  (∀ (s : State) (e : Engine) (seed0 seed1 inc : Word), JustAccepted s → e ≠ .l64x128mix →
    seed0 = s.latch.args.w0 → seed1 = s.latch.args.w1 → inc = 2 * seed1 + 1 →
    ∃ t, exec (.seed2 e) s = .next t ∧ Completed s t 0 ∧ t.res = s.res ∧ t.type = some e ∧
      (e = .pcgXshRr32 ∨ e = .pcgXshRs32 → t.w = ⟨(seed0 + inc) * 0x5851F42D4C957F2D + inc, inc, 0, 0⟩) ∧
      (e = .xrs128pp →
        ((seed0 = 0 ∧ seed1 = 0) ∨ (seed0 = 0x61C8864680B583EB ∧ seed1 = 0xC3910C8D016B07D6) →
          t.w = xrsSeed1 0) ∧
        (¬((seed0 = 0 ∧ seed1 = 0) ∨ (seed0 = 0x61C8864680B583EB ∧ seed1 = 0xC3910C8D016B07D6)) →
          t.w = ⟨rrmxmx (seed0 + 0x9E3779B97F4A7C15), rrmxmx (seed1 + 0x3C6EF372FE94F82A), 0, 0⟩))) ∧
  pcgSeed2 0x012DE1BABB3C4104 0xC8161B4202294965 = ⟨0x86E906F946FC7F2E, 0x902C3684045292CB, 0, 0⟩ ∧
  nextWord .pcgXshRr32 ⟨0x86E906F946FC7F2E, 0x902C3684045292CB, 0, 0⟩ =
    (0xE860DD24, ⟨0x22E9945A6F92BFE1, 0x902C3684045292CB, 0, 0⟩) ∧
  nextWord .pcgXshRr32 ⟨0x22E9945A6F92BFE1, 0x902C3684045292CB, 0, 0⟩ =
    (0x15D339C0, ⟨0x4F75D7B0E843EC58, 0x902C3684045292CB, 0, 0⟩) ∧
  (nextWord .pcgXshRr32 ⟨0x4F75D7B0E843EC58, 0x902C3684045292CB, 0, 0⟩).1 = 0xD9F75C46

/-- R202: `LOAD`: the four words, the addend forced odd, an all-zero sub-state replaced. -/
def Obligations.LoadConfiguresFromFourWords : Prop :=
  encode .load = 0x403 ∧ (∀ v : Word, opField v = 0x03 → v ≠ 0x403 → ∃ r, decode v = .illegal r) ∧
  (∀ (s : State) (a : Words4), JustAccepted s → a = s.latch.args →
    ∃ t, exec .load s = .next t ∧ Completed s t 0 ∧ t.res = s.res ∧ t.type = some .l64x128mix ∧
      t.w.w0 = a.w0 ||| 1 ∧ t.w.w1 = a.w1 ∧
      (¬(a.w2 = 0 ∧ a.w3 = 0) → t.w.w2 = a.w2 ∧ t.w.w3 = a.w3) ∧
      (a.w2 = 0 ∧ a.w3 = 0 → t.w.w2 = stafford13 (a.w1 + 0x9E3779B97F4A7C15) ∧
        t.w.w3 = stafford13 (a.w1 + 0x3C6EF372FE94F82A))) ∧
  (lxmNext ⟨0xAFF65436B20AC0CD, 1, 0x33168D08F487818F, 0x57522A4615E4AA54⟩).1 = 0x93B7E549B4276205 ∧
  (lxmNext (lxmNext ⟨0xAFF65436B20AC0CD, 1, 0x33168D08F487818F, 0x57522A4615E4AA54⟩).2).1 = 0x5884FEC4F3D2D093

/-- R203: a configuring command replaces `TYPE` and all four words whatever stood there, with 0 in the words its engine
leaves unused; no other command writes `TYPE`. -/
def Obligations.OnlyConfiguringCommandsWriteType : Prop :=
  (∀ (i : Instr) (s u : State), configuring i = true → i.wf = true →
    s.latch = u.latch → s.pcgDefaultInc = u.pcgDefaultInc →
    ∃ t v e, exec i s = .next t ∧ exec i u = .next v ∧ t.type = some e ∧ v.type = some e ∧ t.w = v.w ∧
      (e ≠ .l64x128mix → t.w.w2 = 0 ∧ t.w.w3 = 0)) ∧
  (∀ (i : Instr) (s t : State), configuring i = false → exec i s = .next t → t.type = s.type)

/-- R204: `SIZE`. -/
def Obligations.SizeReportsTheSnapshotWords : Prop :=
  encode .size = 0x006 ∧ (∀ v : Word, opField v = 0x06 → v ≠ 0x006 → ∃ r, decode v = .illegal r) ∧
  (∀ s : State, s.type = none → ∃ t, exec .size s = .next t ∧ Failed s t .notConfigured) ∧
  ∀ (s : State) (e : Engine), JustAccepted s → s.type = some e →
    ∃ t, exec .size s = .next t ∧ Completed s t 0 ∧ t.type = s.type ∧ t.w = s.w ∧
      t.res = { s.res with w0 := if e = .l64x128mix then 4 else 2 } ∧
      t.res.w0 = (sizeCode t.type).setWidth 64

/-- R206: `SAVE`, with the words of R207. -/
def Obligations.SaveCopiesTheSnapshotToTheResults : Prop :=
  encode .save = 0x004 ∧ (∀ v : Word, opField v = 0x04 → v ≠ 0x004 → ∃ r, decode v = .illegal r) ∧
  (∀ s : State, s.type = none → ∃ t, exec .save s = .next t ∧ Failed s t .notConfigured) ∧
  ∀ (s : State) (e : Engine), JustAccepted s → s.type = some e →
    ∃ t, exec .save s = .next t ∧ Completed s t 0 ∧ t.type = s.type ∧ t.w = s.w ∧
      (e = .pcgXshRr32 ∨ e = .pcgXshRs32 → t.res = ⟨s.w.w0, BitVec.ofNat 64 (s.w.w1.toNat / 2), 0, 0⟩) ∧
      (e = .xrs128pp → t.res = ⟨s.w.w0, s.w.w1, 0, 0⟩) ∧
      (e = .l64x128mix → t.res = s.w)

/-- R209 with R210 and R212: `RESTORE` installs the words exactly or reports INVALID_STATE with nothing changed. -/
def Obligations.RestoreInstallsOrRefusesTheSnapshot : Prop :=
  (∀ v : Word, opField v = 0x05 → ((∃ r, decode v = .illegal r) ↔ v.toNat / 65536 ≠ 0)) ∧
  (∀ (s : State) (tag len : BitVec 4), s.type = none →
    ∃ t, exec (.restore tag len) s = .next t ∧ Failed s t .notConfigured) ∧
  ∀ (s : State) (e : Engine) (tag len : BitVec 4) (a : Words4), JustAccepted s → s.type = some e →
    a = s.latch.args →
    ∃ t, exec (.restore tag len) s = .next t ∧ t.type = s.type ∧ t.res = s.res ∧
      (BadRestore e tag len a → Failed s t .invalidState) ∧
      (¬BadRestore e tag len a → Completed s t 0 ∧
        (e = .pcgXshRr32 ∨ e = .pcgXshRs32 → t.w = ⟨a.w0, 2 * a.w1 + 1, 0, 0⟩) ∧
        (e = .xrs128pp → t.w = ⟨a.w0, a.w1, 0, 0⟩) ∧
        (e = .l64x128mix → t.w = a))

/-- R208: what `SAVE` puts in the results, given back with its tag and length, installs the very state saved, whatever the
engine of that type has drawn since. -/
def Obligations.SaveThenRestoreResumesTheEngine : Prop :=
  ∀ (s : State) (e : Engine), s.Inv → s.type = some e →
    ∃ t, exec .save s = .next t ∧
      ∀ u : State, JustAccepted u → u.type = some e → u.latch.args = t.res →
        ∃ v, exec (.restore e.code (stateSize e)) u = .next v ∧ Completed u v 0 ∧ v.type = s.type ∧ v.w = s.w

/-- R56: the byte form of a snapshot, byte by byte, and that the host can parse it. -/
def Obligations.SnapshotBytesAreBigEndianWords : Prop :=
  ∀ (e : Engine) (v : Words4),
    (snapshotBytes e v).length = 8 * (stateSize e).toNat ∧
    (∀ (j : Fin 4) (k : Nat), j.val < (stateSize e).toNat → k < 8 →
      (snapshotBytes e v)[8 * j.val + k]? = some ((v.get j).extractLsb' (56 - 8 * k) 8)) ∧
    (e = .l64x128mix ∨ (v.w2 = 0 ∧ v.w3 = 0) → snapshotOfBytes e (snapshotBytes e v) = some v)

/-! ## The engines -/

/-- R141, R143: a PCG draw outputs from the state before the step, steps the LCG, and leaves the increment. -/
def Obligations.PcgDrawReadsTheOldState : Prop :=
  ∀ w : Words4,
    (nextWord .pcgXshRr32 w).1.toNat = (xshRr w.w0).toNat ∧ (nextWord .pcgXshRs32 w).1.toNat = (xshRs w.w0).toNat ∧
    ∀ e : Engine, e = .pcgXshRr32 ∨ e = .pcgXshRs32 →
      (nextWord e w).2.w0.toNat = (w.w0.toNat * 6364136223846793005 + w.w1.toNat) % 2 ^ 64 ∧
      (nextWord e w).2.w1 = w.w1 ∧ (nextWord e w).2.w2 = w.w2 ∧ (nextWord e w).2.w3 = w.w3

/-- R142, bit by bit: bit j of the XSH-RR output, the rotation count in the top five bits of the state. -/
def Obligations.XshRrOutputBits : Prop :=
  ∀ (x : Word) (j : Nat), j < 32 →
    (xshRr x).getLsbD j =
      (x.getLsbD (27 + (j + x.toNat / 2 ^ 59) % 32) ^^ x.getLsbD (45 + (j + x.toNat / 2 ^ 59) % 32))

/-- R144, bit by bit: bit j of the XSH-RS output, the shift 22 plus the top three bits of the state. -/
def Obligations.XshRsOutputBits : Prop :=
  (∀ (x : Word) (j : Nat), j < 32 →
    (xshRs x).getLsbD j =
      (x.getLsbD (22 + x.toNat / 2 ^ 61 + j) ^^ x.getLsbD (44 + x.toNat / 2 ^ 61 + j))) ∧
  xshRs 0x86E906F946FC7F2E = 0xBA4138B8

/-- R148: the PCG restore accepts every pair, ignores bit 63 of its second word, and undoes the save on every valid state. -/
def Obligations.PcgRestoreUndoesSave : Prop :=
  (∀ v : Words4, restoreWords .pcgXshRr32 v = some ⟨v.w0, 2 * v.w1 + 1, 0, 0⟩ ∧
    restoreWords .pcgXshRs32 v = some ⟨v.w0, 2 * v.w1 + 1, 0, 0⟩) ∧
  (∀ a b : Word, pcgRestore ⟨a, b, 0, 0⟩ = pcgRestore ⟨a, b ^^^ 0x8000000000000000, 0, 0⟩) ∧
  (∀ w : Words4, EngineOk (some .pcgXshRr32) w → pcgRestore (pcgSave w) = w)

/-- R163, bit by bit: the XRS128PP update, and that it is a bijection that maps only (0, 0) to (0, 0). -/
def Obligations.XrsUpdateIsTheStatedBijection : Prop :=
  (∀ (x0 x1 : Word) (j : Nat), j < 64 →
    (xrsUpdate x0 x1).1.getLsbD j =
      (x0.getLsbD ((j + 15) % 64) ^^ (x1.getLsbD j ^^ x0.getLsbD j) ^^
        (decide (21 ≤ j) && (x1.getLsbD (j - 21) ^^ x0.getLsbD (j - 21)))) ∧
    (xrsUpdate x0 x1).2.getLsbD j = (x1.getLsbD ((j + 36) % 64) ^^ x0.getLsbD ((j + 36) % 64))) ∧
  Function.Bijective (fun x : Word × Word => xrsUpdate x.1 x.2) ∧
  ∀ x0 x1 : Word, xrsUpdate x0 x1 = (0, 0) ↔ x0 = 0 ∧ x1 = 0

/-- R183, bit by bit: the XBG update, and that it is a bijection that maps only (0, 0) to (0, 0). -/
def Obligations.XbgUpdateIsTheStatedBijection : Prop :=
  (∀ (x0 x1 : Word) (j : Nat), j < 64 →
    (xbgUpdate x0 x1).1.getLsbD j =
      (x0.getLsbD ((j + 40) % 64) ^^ (x1.getLsbD j ^^ x0.getLsbD j) ^^
        (decide (16 ≤ j) && (x1.getLsbD (j - 16) ^^ x0.getLsbD (j - 16)))) ∧
    (xbgUpdate x0 x1).2.getLsbD j = (x1.getLsbD ((j + 27) % 64) ^^ x0.getLsbD ((j + 27) % 64))) ∧
  Function.Bijective (fun x : Word × Word => xbgUpdate x.1 x.2) ∧
  ∀ x0 x1 : Word, xbgUpdate x0 x1 = (0, 0) ↔ x0 = 0 ∧ x1 = 0

/-- R161, R164: an XRS128PP draw outputs from the state before the update. -/
def Obligations.XrsDrawReadsTheOldState : Prop :=
  (∀ w : Words4,
    (nextWord .xrs128pp w).1 = (w.w0 + w.w1).rotateLeft 17 + w.w0 ∧
    ((nextWord .xrs128pp w).2.w0, (nextWord .xrs128pp w).2.w1) = xrsUpdate w.w0 w.w1 ∧
    (nextWord .xrs128pp w).2.w2 = w.w2 ∧ (nextWord .xrs128pp w).2.w3 = w.w3) ∧
  nextWord .xrs128pp ⟨1, 2, 0, 0⟩ = (0x0000000000060001, ⟨0x0002000000600003, 0x0000000030000000, 0, 0⟩)

/-- R181, R184: an L64X128MIX draw outputs from the state before the step and leaves the addend. -/
def Obligations.LxmDrawReadsTheOldState : Prop :=
  (∀ w : Words4,
    (nextWord .l64x128mix w).1 = lea64 (w.w1 + w.w2) ∧
    (nextWord .l64x128mix w).2.w0 = w.w0 ∧
    (nextWord .l64x128mix w).2.w1.toNat = (0xD1342543DE82EF95 * w.w1.toNat + w.w0.toNat) % 2 ^ 64 ∧
    ((nextWord .l64x128mix w).2.w2, (nextWord .l64x128mix w).2.w3) = xbgUpdate w.w2 w.w3) ∧
  nextWord .l64x128mix ⟨0xAFF65436B20AC0CD, 1, 0x33168D08F487818F, 0x57522A4615E4AA54⟩ =
    (0x93B7E549B4276205, ⟨0xAFF65436B20AC0CD, 0x812A797A908DB062, 0xCBFEC1AC458B3D56, 0x2C657B6C8894E9DC⟩)

/-- R108: `rrmxmx` and `stafford13` are bijections that map 0, and only 0, to 0. -/
def Obligations.SeedMixersAreBijectionsFixingZero : Prop :=
  Function.Bijective rrmxmx ∧ Function.Bijective stafford13 ∧
    (∀ v : Word, rrmxmx v = 0 ↔ v = 0) ∧ ∀ v : Word, stafford13 v = 0 ↔ v = 0

/-- R182 with the glossary's "mixing function": `lea64` is a bijection. -/
def Obligations.OutputMixerIsABijection : Prop :=
  Function.Bijective lea64 ∧ lea64 0 = 0 ∧ lea64 1 = 0xC6CAF8CBA3316ACC

/-- R166, and R167, R185, R186, R187 beside it: no construction gives an all-zero sub-state or an even addend. -/
def Obligations.SeedingNeverGivesAZeroSubState : Prop :=
  (∀ seed : Word, ¬((xrsSeed1 seed).w0 = 0 ∧ (xrsSeed1 seed).w1 = 0)) ∧
    (∀ a b : Word, ¬((xrsSeed2 a b).w0 = 0 ∧ (xrsSeed2 a b).w1 = 0)) ∧
    (∀ s : Word, lxmSub s ≠ (0, 0)) ∧
    (∀ v : Words4, EngineOk (some .l64x128mix) (lxmLoad v)) ∧
    ∀ seed : Word, EngineOk (some .l64x128mix) (lxmSeed1 seed)

/-! ## The whole machine -/

/-- The invariant of the engine state (R31) and of a running command holds at reset. -/
def Obligations.InvariantHoldsAtReset : Prop := State.reset.Inv

/-- R31: every step of either agent, and the reset input, keeps the invariant. -/
def Obligations.EveryStepKeepsTheInvariant : Prop :=
  ∀ s t : State, s.Inv → step s = .next t → t.Inv

/-- R35, R51: a step has a next state unless the host's next access is one the block does not define. That an agent with
nothing to do has a step too is the model's choice (log entry 6). -/
def Obligations.OnlyUndefinedAccessesStopTheMachine : Prop :=
  (∀ (i : Instr) (s : State), ∃ t, exec i s = .next t) ∧
    ∀ s : State, (∀ op ∈ s.host.head?, op.wf = true) → ∃ t, step s = .next t

/-- R23: the results change only in a step that completes a command successfully, or by the reset input. -/
def Obligations.ResultsChangeOnlyOnSuccess : Prop :=
  ∀ s t : State, step s = .next t → t.res ≠ s.res →
    s.turns.head? = some .reset ∨ (s.busy = true ∧ t.busy = false ∧ t.done = true ∧ t.err = .ok)

/-- R22, R26, R76, read through the register space: the registers each kind of command may change. Every engine step may
change `STATUS` (0x10); a completion writes `CNT` (0x60); the draw, bounded and size commands write `RES0` (0x40), `SAVE`
all four results (0x40 to 0x58), the others none. -/
def Obligations.CommandsLeaveOtherRegistersAlone : Prop :=
  ∀ (i : Instr) (s t : State), exec i s = .next t →
    ∀ off, off ≠ 0x10 → off ≠ 0x60 →
      (i = .save ∧ (off = 0x40 ∨ off = 0x48 ∨ off = 0x50 ∨ off = 0x58)) ∨
      ((i = .size ∨ i = .nextw ∨ i = .next32 ∨ i = .next64 ∨ i = .bnd32 ∨ i = .bnd64) ∧ off = 0x40) ∨
      memRead t off = memRead s off

/-- R64: the command is the word of the accepting write; no later host operation changes the running command, and a later
write to `CMD` sets `OVR`. -/
def Obligations.HostCannotChangeARunningCommand : Prop :=
  (∀ (s : State) (v : Word), s.busy = false → ∃ t, memWrite 0x18 v s = some t ∧ t.latch.cmd = v) ∧
  (∀ (s t : State) (op : HostOp) (rest : List HostOp), s.busy = true → hostOp op rest s = .next t →
    t.busy = true ∧ t.latch = s.latch ∧ t.type = s.type ∧ t.w = s.w ∧ t.res = s.res ∧ t.cnt = s.cnt ∧ t.err = s.err) ∧
  (∀ (s : State) (v : Word), s.busy = true → ∃ t, memWrite 0x18 v s = some t ∧ t.ovr = true)

/-- R272: what a step of a command does to the engine, and what it reports, depends only on `TYPE`, `W`, the latch and the
parameter: not on the operand registers, the flags, or what the host has done or will do. -/
def Obligations.ResultsDependOnlyOnEngineAndLatch : Prop :=
  ∀ (i : Instr) (s u t v : State), s.busy = true → u.busy = true →
    s.type = u.type → s.w = u.w → s.latch = u.latch → s.pcgDefaultInc = u.pcgDefaultInc →
    exec i s = .next t → exec i u = .next v →
      t.type = v.type ∧ t.w = v.w ∧ t.busy = v.busy ∧ (t.busy = true → t.latch = v.latch) ∧
      (t.busy = false → t.err = v.err ∧ t.cnt = v.cnt ∧ t.done = v.done ∧
        ∀ k, t.res.get k = v.res.get k ∨ (t.res.get k = s.res.get k ∧ v.res.get k = u.res.get k))

/-- R22, R276: a host write to the operand registers while a command runs does not reach it: it commutes with the
command's step. -/
def Obligations.OperandWritesDoNotReachARunningCommand : Prop :=
  ∀ (i : Instr) (s t : State) (a : Words4), exec i s = .next t →
    t.arg = s.arg ∧ exec i { s with arg := a } = .next { t with arg := a }

/-- R34: no rule reads the latch while `BUSY` = 0: two idle states that differ only in it make the same step, to states
that differ in it at most while `BUSY` = 0. -/
def Obligations.IdleLatchIsNeverRead : Prop :=
  ∀ (s t : State) (l : Latch), s.busy = false → step s = .next t →
    ∃ k, step { s with latch := l } = .next { t with latch := k } ∧ (t.busy = true → k = t.latch)

/-- R257, R283: an idle block whose host has nothing left holds all its state. The spec gives such a block no transition:
that a turn with nothing to do is a step, and leaves the whole of `State` as it is, is the model's choice (log entry 6). -/
def Obligations.IdleBlockHoldsAllState : Prop :=
  ∀ s : State, Quiescent s → s.turns = [] → step s = .next s

/-- R81: `wait` goes on exactly while the `BUSY` it reads is 1, and changes nothing but the host's place in its script. The
host's script as a field, one read of `STATUS` at a turn, and that a wait's reads leave no record are the model's choice (log
entry 5). -/
def Obligations.WaitEndsExactlyWhenIdle : Prop :=
  ∀ (s : State) (rest : List HostOp), s.host = .wait :: rest →
    (s.busy = true → hostTurn s = .next s) ∧ (s.busy = false → hostTurn s = .next { s with host := rest })
end

