-- ==== Sys2Proof/Laws/Encoding.lean ====
section
/-! SUPPORT. The fields of a command word (R71): what the encoder writes into them, and that they make up the word. -/

namespace Sys2Proof

theorem toNat_append_eq {n m : Nat} (x : BitVec n) (y : BitVec m) : (x ++ y).toNat = x.toNat * 2 ^ m + y.toNat := by
  rw [BitVec.toNat_append, ← Nat.shiftLeft_add_eq_or_of_lt y.isLt, Nat.shiftLeft_eq]

theorem opField_toNat (v : Word) : (opField v).toNat = v.toNat % 256 := by
  simp [opField, BitVec.extractLsb'_toNat]

theorem tyField_toNat (v : Word) : (tyField v).toNat = v.toNat / 256 % 16 := by
  simp [tyField, BitVec.extractLsb'_toNat, Nat.shiftRight_eq_div_pow]

theorem lenField_toNat (v : Word) : (lenField v).toNat = v.toNat / 4096 % 16 := by
  simp [lenField, BitVec.extractLsb'_toNat, Nat.shiftRight_eq_div_pow]

theorem rsvField_toNat (v : Word) : (rsvField v).toNat = v.toNat / 65536 := by
  have := v.isLt
  simp [rsvField, BitVec.extractLsb'_toNat, Nat.shiftRight_eq_div_pow]
  omega

theorem encode_toNat (i : Instr) :
    (encode i).toNat = i.len.toNat * 4096 + i.ty.toNat * 256 + i.opcode.toNat := by
  unfold encode
  rw [toNat_append_eq, toNat_append_eq, toNat_append_eq]
  simp
  omega

@[simp] theorem rsvField_encode (i : Instr) : rsvField (encode i) = 0 := by
  have := i.len.isLt; have := i.ty.isLt; have := i.opcode.isLt
  apply BitVec.eq_of_toNat_eq
  rw [rsvField_toNat, encode_toNat]
  simp
  omega

@[simp] theorem opField_encode (i : Instr) : opField (encode i) = i.opcode := by
  have := i.opcode.isLt
  apply BitVec.eq_of_toNat_eq
  rw [opField_toNat, encode_toNat]
  omega

@[simp] theorem tyField_encode (i : Instr) : tyField (encode i) = i.ty := by
  have := i.ty.isLt; have := i.opcode.isLt
  apply BitVec.eq_of_toNat_eq
  rw [tyField_toNat, encode_toNat]
  omega

@[simp] theorem lenField_encode (i : Instr) : lenField (encode i) = i.len := by
  have := i.len.isLt; have := i.ty.isLt; have := i.opcode.isLt
  apply BitVec.eq_of_toNat_eq
  rw [lenField_toNat, encode_toNat]
  omega

/-- A word with its reserved bits 0 is the encoding of any command with its opcode, `TY` and `LEN`. -/
theorem encode_eq_of_fields (v : Word) (i : Instr) (hr : rsvField v = 0) (ho : i.opcode = opField v)
    (ht : i.ty = tyField v) (hl : i.len = lenField v) : encode i = v := by
  apply BitVec.eq_of_toNat_eq
  have h0 := rsvField_toNat v
  rw [hr] at h0
  rw [encode_toNat, ho, ht, hl, opField_toNat, tyField_toNat, lenField_toNat]
  simp at h0
  omega

end Sys2Proof
end

