-- ==== Sys2Proof/Laws/Mixers.lean ====
section
/-! SUPPORT. The mixing functions and the xor-shift-rotate updates lose nothing: each is injective (R106, R107, R163, R182,
R183). An injective function on words is also surjective. -/

namespace Sys2Proof.Machine

/-! ### Bits of rotations -/

theorem getLsbD_rotateRight64 (v : Word) (r j : Nat) :
    (v.rotateRight r).getLsbD j = (decide (j < 64) && v.getLsbD ((j + r) % 64)) := by
  rw [BitVec.getLsbD_rotateRight]
  by_cases hj : j < 64
  · have hr : r % 64 < 64 := Nat.mod_lt _ (by omega)
    by_cases h : j < 64 - r % 64
    · rw [show (j + r) % 64 = r % 64 + j by omega]; simp [hj, h]
    · rw [show (j + r) % 64 = j - (64 - r % 64) by omega]; simp [hj, h]
  · have h : ¬ j < 64 - r % 64 := by omega
    simp [hj, h]

theorem getLsbD_rotateLeft64 (v : Word) (r j : Nat) (hr : r < 64) :
    (v.rotateLeft r).getLsbD j = (decide (j < 64) && v.getLsbD ((j + (64 - r)) % 64)) := by
  rw [BitVec.getLsbD_rotateLeft, Nat.mod_eq_of_lt hr]
  by_cases hj : j < 64
  · by_cases h : j < r
    · rw [show (j + (64 - r)) % 64 = 64 - r + j by omega]; simp [hj, h]
    · rw [show (j + (64 - r)) % 64 = j - r by omega]; simp [hj, h]
  · have h : ¬ j < r := by omega
    simp [hj, h]

theorem rotateLeft_injective (r : Nat) (hr : r < 64) : Function.Injective (fun v : Word => v.rotateLeft r) := by
  intro v w h
  apply BitVec.eq_of_getLsbD_eq
  intro j hj
  have h' := congrArg (fun u : Word => u.getLsbD ((j + r) % 64)) h
  have hlt : (j + r) % 64 < 64 := Nat.mod_lt _ (by omega)
  simp only [getLsbD_rotateLeft64 _ _ _ hr, hlt, show ((j + r) % 64 + (64 - r)) % 64 = j by omega, decide_true,
    Bool.true_and] at h'
  exact h'

/-! ### The linear steps: applied to itself, each doubles its distances, and after six doublings the rest is the word -/

/-- The first line of `rrmxmx` with its two rotations as parameters. -/
def twoRot (a b : Nat) (v : Word) : Word := v ^^^ v.rotateRight a ^^^ v.rotateRight b

theorem twoRot_twice (a b : Nat) (v : Word) : twoRot a b (twoRot a b v) = twoRot (2 * a) (2 * b) v := by
  apply BitVec.eq_of_getLsbD_eq
  intro j hj
  have h (k : Nat) : k % 64 < 64 := Nat.mod_lt _ (by omega)
  simp only [twoRot, BitVec.getLsbD_xor, getLsbD_rotateRight64, hj, h, decide_true, Bool.true_and, Nat.mod_add_mod]
  rw [show j + 2 * a = j + a + a by omega, show j + 2 * b = j + b + b by omega, show j + b + a = j + a + b by omega]
  generalize v.getLsbD j = p, v.getLsbD ((j + a) % 64) = q, v.getLsbD ((j + b) % 64) = r,
    v.getLsbD ((j + a + b) % 64) = t, v.getLsbD ((j + a + a) % 64) = x, v.getLsbD ((j + b + b) % 64) = y
  revert p q r t x y
  decide

theorem twoRot_xor (a b : Nat) (v w : Word) : twoRot a b (v ^^^ w) = twoRot a b v ^^^ twoRot a b w := by
  apply BitVec.eq_of_getLsbD_eq
  intro j hj
  simp only [twoRot, BitVec.getLsbD_xor, getLsbD_rotateRight64, hj, decide_true, Bool.true_and]
  generalize v.getLsbD j = p, v.getLsbD ((j + a) % 64) = q, v.getLsbD ((j + b) % 64) = r,
    w.getLsbD j = t, w.getLsbD ((j + a) % 64) = x, w.getLsbD ((j + b) % 64) = y
  revert p q r t x y
  decide

theorem twoRot_zero_double {a b : Nat} {v : Word} (h : twoRot a b v = 0) : twoRot (2 * a) (2 * b) v = 0 := by
  rw [← twoRot_twice, h]
  apply BitVec.eq_of_getLsbD_eq
  intro j hj
  simp [twoRot]

theorem rotMix_injective : Function.Injective rotMix := by
  intro v w h
  have h0 : twoRot 49 24 (v ^^^ w) = 0 := by
    rw [twoRot_xor, show twoRot 49 24 v = twoRot 49 24 w from h, BitVec.xor_self]; rfl
  have h6 := twoRot_zero_double (twoRot_zero_double (twoRot_zero_double (twoRot_zero_double
    (twoRot_zero_double (twoRot_zero_double h0)))))
  apply BitVec.eq_of_getLsbD_eq
  intro j hj
  have hb := congrArg (fun u : Word => u.getLsbD j) h6
  simp only [twoRot, BitVec.getLsbD_xor, getLsbD_rotateRight64, hj, decide_true, Bool.true_and] at hb
  rw [show (j + 2 * (2 * (2 * (2 * (2 * (2 * 49)))))) % 64 = j by omega,
    show (j + 2 * (2 * (2 * (2 * (2 * (2 * 24)))))) % 64 = j by omega] at hb
  revert hb
  generalize v.getLsbD j = p, w.getLsbD j = q
  revert p q
  simp

theorem xorShift_twice (k : Nat) (v : Word) : xorShift k (xorShift k v) = xorShift (2 * k) v := by
  apply BitVec.eq_of_getLsbD_eq
  intro j hj
  simp only [xorShift, BitVec.getLsbD_xor, BitVec.getLsbD_ushiftRight]
  rw [show k + (k + j) = 2 * k + j by omega]
  generalize v.getLsbD j = p, v.getLsbD (k + j) = q, v.getLsbD (2 * k + j) = r
  revert p q r
  decide

theorem xorShift_injective (k : Nat) (hk : 0 < k) : Function.Injective (xorShift k) := by
  have hz : ∀ {n : Nat} {v w : Word}, xorShift n v = xorShift n w → xorShift (2 * n) v = xorShift (2 * n) w := by
    intro n v w h
    rw [← xorShift_twice, ← xorShift_twice, h]
  intro v w h
  have h6 := hz (hz (hz (hz (hz (hz h)))))
  apply BitVec.eq_of_getLsbD_eq
  intro j hj
  have hb := congrArg (fun u : Word => u.getLsbD j) h6
  simpa [xorShift, BitVec.getLsbD_of_ge _ _ (show 64 ≤ 2 * (2 * (2 * (2 * (2 * (2 * k))))) + j by omega)] using hb

/-- A constant with an inverse can be cancelled. -/
theorem mul_injective {m k : Word} (h : m * k = 1) : Function.Injective (fun v : Word => v * m) := by
  intro v w hv
  have hk := congrArg (fun u : Word => u * k) hv
  simp only [BitVec.mul_assoc, h] at hk
  exact (mul_one v).symm.trans (hk.trans (mul_one w))

/-! ### The mixers -/

theorem rrmxmx_injective : Function.Injective rrmxmx := by
  have hm : Function.Injective (fun v : Word => v * rrmxmxM) := mul_injective (k := 0x02AB9C720D1024AD) (by decide)
  have hs := xorShift_injective 28 (by omega)
  intro v w h
  exact rotMix_injective (hm (hs (hm (hs h))))

theorem stafford13_injective : Function.Injective stafford13 := by
  have h1 : Function.Injective (fun v : Word => v * 0xBF58476D1CE4E5B9) :=
    mul_injective (k := 0x96DE1B173F119089) (by decide)
  have h2 : Function.Injective (fun v : Word => v * 0x94D049BB133111EB) :=
    mul_injective (k := 0x319642B2D24D8EC3) (by decide)
  intro v w h
  exact xorShift_injective 30 (by omega) (h1 (xorShift_injective 27 (by omega)
    (h2 (xorShift_injective 31 (by omega) h))))

theorem lea64_injective : Function.Injective lea64 := by
  have hm : Function.Injective (fun v : Word => v * lea64M) := mul_injective (k := 0xA6F8E26927E132CB) (by decide)
  have hs := xorShift_injective 32 (by omega)
  intro v w h
  exact hs (hm (hs (hm (hs h))))

theorem rrmxmx_zero : rrmxmx 0 = 0 := by decide
theorem stafford13_zero : stafford13 0 = 0 := by decide

/-- No word and its neighbour one `GOLDEN` on are both 0, so a seeded pair is never all zero (R166, R185). -/
theorem mixedPair_ne_zero {f : Word → Word} (hf : Function.Injective f) (h0 : f 0 = 0) (s : Word) :
    ¬(f (s + golden) = 0 ∧ f (s + golden2) = 0) := by
  rintro ⟨h1, h2⟩
  have e1 : s + golden = 0 := hf (h1.trans h0.symm)
  have e2 : s + golden2 = 0 := hf (h2.trans h0.symm)
  have : golden = golden2 := by
    have := e1.trans e2.symm
    bv_omega
  exact absurd this (by decide)

/-! ### The updates -/

theorem xorRotUpdate_injective (a b c : Nat) (ha : a < 64) (hc : c < 64) :
    Function.Injective (fun x : Word × Word => xorRotUpdate a b c x.1 x.2) := by
  rintro ⟨x0, x1⟩ ⟨z0, z1⟩ h
  simp only [xorRotUpdate, Prod.mk.injEq] at h
  obtain ⟨h0, h1⟩ := h
  have hy : x1 ^^^ x0 = z1 ^^^ z0 := rotateLeft_injective c hc h1
  rw [hy] at h0
  have hx : x0 = z0 := by
    apply rotateLeft_injective a ha
    have := congrArg (fun u : Word => u ^^^ ((z1 ^^^ z0) <<< b) ^^^ (z1 ^^^ z0)) h0
    simpa [BitVec.xor_assoc] using this
  subst hx
  have := congrArg (fun u : Word => u ^^^ x0) hy
  simpa [BitVec.xor_assoc] using this

theorem xorRotUpdate_zero (a b c : Nat) (ha : a < 64) (hc : c < 64) (x0 x1 : Word) :
    xorRotUpdate a b c x0 x1 = (0, 0) ↔ x0 = 0 ∧ x1 = 0 := by
  have hz : xorRotUpdate a b c 0 0 = (0, 0) := by
    have hr : ∀ r < 64, (0 : Word).rotateLeft r = 0 := by decide
    simp [xorRotUpdate, show (0#64).rotateLeft a = 0 from hr a ha, show (0#64).rotateLeft c = 0 from hr c hc]
  constructor
  · intro h
    have := xorRotUpdate_injective a b c ha hc (show (fun x : Word × Word => xorRotUpdate a b c x.1 x.2) (x0, x1) =
      (fun x : Word × Word => xorRotUpdate a b c x.1 x.2) (0, 0) from h.trans hz.symm)
    simpa using this
  · rintro ⟨rfl, rfl⟩
    exact hz

end Sys2Proof.Machine
end

