-- ==== Sys2Proof/Laws/Engines.lean ====
section
/-! SUPPORT. One draw of each engine as an equation on its state words, so that no proof unfolds an engine
(R101, R143, R164, R184), and which of the updates can give zero. -/

namespace Sys2Proof.Machine

variable (w : Words4)

@[simp] theorem nextWord_rr_value : (nextWord .pcgXshRr32 w).1 = (xshRr w.w0).setWidth 64 := rfl
@[simp] theorem nextWord_rr_state : (nextWord .pcgXshRr32 w).2 = { w with w0 := bump w.w1 w.w0 } := rfl
@[simp] theorem nextWord_rs_value : (nextWord .pcgXshRs32 w).1 = (xshRs w.w0).setWidth 64 := rfl
@[simp] theorem nextWord_rs_state : (nextWord .pcgXshRs32 w).2 = { w with w0 := bump w.w1 w.w0 } := rfl
@[simp] theorem nextWord_xrs_value : (nextWord .xrs128pp w).1 = xrsOut w.w0 w.w1 := rfl
@[simp] theorem nextWord_xrs_state :
    (nextWord .xrs128pp w).2 = { w with w0 := (xrsUpdate w.w0 w.w1).1, w1 := (xrsUpdate w.w0 w.w1).2 } := rfl
@[simp] theorem nextWord_lxm_value : (nextWord .l64x128mix w).1 = lea64 (w.w1 + w.w2) := rfl
@[simp] theorem nextWord_lxm_state :
    (nextWord .l64x128mix w).2 =
      ⟨w.w0, lxmM * w.w1 + w.w0, (xbgUpdate w.w2 w.w3).1, (xbgUpdate w.w2 w.w3).2⟩ := rfl

/-- The XRS128PP update gives (0, 0) from (0, 0) alone (R163). -/
theorem xrsUpdate_zero (x0 x1 : Word) : ((xrsUpdate x0 x1).1 = 0 ∧ (xrsUpdate x0 x1).2 = 0) ↔ x0 = 0 ∧ x1 = 0 := by
  rw [← xorRotUpdate_zero 49 21 28 (by omega) (by omega) x0 x1, ← Prod.mk.injEq]
  unfold xrsUpdate
  exact Iff.rfl

/-- The XBG update gives (0, 0) from (0, 0) alone (R183). -/
theorem xbgUpdate_zero (x0 x1 : Word) : ((xbgUpdate x0 x1).1 = 0 ∧ (xbgUpdate x0 x1).2 = 0) ↔ x0 = 0 ∧ x1 = 0 := by
  rw [← xorRotUpdate_zero 24 16 37 (by omega) (by omega) x0 x1, ← Prod.mk.injEq]
  unfold xbgUpdate
  exact Iff.rfl

/-- A 32-bit engine's native word is below 2^32 (R105). -/
theorem nextWord_pcg_lt (e : Engine) (he : width e = 32) : (nextWord e w).1.toNat < 2 ^ 32 := by
  cases e with
  | pcgXshRr32 => rw [nextWord_rr_value, BitVec.toNat_setWidth]; have := (xshRr w.w0).isLt; omega
  | pcgXshRs32 => rw [nextWord_rs_value, BitVec.toNat_setWidth]; have := (xshRs w.w0).isLt; omega
  | xrs128pp => cases he
  | l64x128mix => cases he

end Sys2Proof.Machine
end

