-- ==== Sys2Proof/Laws/State.lean ====
section
/-! SUPPORT. One lemma for each field under each shared update of the state, so that no proof unfolds a record update. -/

namespace Sys2Proof.Machine

/-! ### `releaseLatch` -/

section
variable (s : State)

@[simp] theorem releaseLatch_ie : (releaseLatch s).ie = s.ie := rfl
@[simp] theorem releaseLatch_busy : (releaseLatch s).busy = s.busy := rfl
@[simp] theorem releaseLatch_done : (releaseLatch s).done = s.done := rfl
@[simp] theorem releaseLatch_ovr : (releaseLatch s).ovr = s.ovr := rfl
@[simp] theorem releaseLatch_err : (releaseLatch s).err = s.err := rfl
@[simp] theorem releaseLatch_arg : (releaseLatch s).arg = s.arg := rfl
@[simp] theorem releaseLatch_res : (releaseLatch s).res = s.res := rfl
@[simp] theorem releaseLatch_cnt : (releaseLatch s).cnt = s.cnt := rfl
@[simp] theorem releaseLatch_type : (releaseLatch s).type = s.type := rfl
@[simp] theorem releaseLatch_w : (releaseLatch s).w = s.w := rfl
@[simp] theorem releaseLatch_latch : (releaseLatch s).latch = idleLatch s.freeCount := rfl
@[simp] theorem releaseLatch_pcgDefaultInc : (releaseLatch s).pcgDefaultInc = s.pcgDefaultInc := rfl
@[simp] theorem releaseLatch_host : (releaseLatch s).host = s.host := rfl
@[simp] theorem releaseLatch_turns : (releaseLatch s).turns = s.turns := rfl
@[simp] theorem releaseLatch_reads : (releaseLatch s).reads = s.reads := rfl
@[simp] theorem releaseLatch_freeCount : (releaseLatch s).freeCount = s.freeCount + 1 := rfl

end

/-! ### `complete` -/

section
variable (r : List (Fin 4 × Word)) (s : State)

@[simp] theorem complete_ie : (complete r s).ie = s.ie := rfl
@[simp] theorem complete_busy : (complete r s).busy = false := rfl
@[simp] theorem complete_done : (complete r s).done = true := rfl
@[simp] theorem complete_ovr : (complete r s).ovr = s.ovr := rfl
@[simp] theorem complete_err : (complete r s).err = .ok := rfl
@[simp] theorem complete_arg : (complete r s).arg = s.arg := rfl
@[simp] theorem complete_res : (complete r s).res = assignRes r s.res := rfl
@[simp] theorem complete_cnt : (complete r s).cnt = s.latch.n := rfl
@[simp] theorem complete_type : (complete r s).type = s.type := rfl
@[simp] theorem complete_w : (complete r s).w = s.w := rfl
@[simp] theorem complete_latch : (complete r s).latch = idleLatch s.freeCount := rfl
@[simp] theorem complete_pcgDefaultInc : (complete r s).pcgDefaultInc = s.pcgDefaultInc := rfl
@[simp] theorem complete_host : (complete r s).host = s.host := rfl
@[simp] theorem complete_turns : (complete r s).turns = s.turns := rfl
@[simp] theorem complete_reads : (complete r s).reads = s.reads := rfl
@[simp] theorem complete_freeCount : (complete r s).freeCount = s.freeCount + 1 := rfl

end

/-! ### `raiseError` -/

section
variable (c : ErrCode) (s : State)

@[simp] theorem raiseError_ie : (raiseError c s).ie = s.ie := rfl
@[simp] theorem raiseError_busy : (raiseError c s).busy = false := rfl
@[simp] theorem raiseError_done : (raiseError c s).done = true := rfl
@[simp] theorem raiseError_ovr : (raiseError c s).ovr = s.ovr := rfl
@[simp] theorem raiseError_err : (raiseError c s).err = c := rfl
@[simp] theorem raiseError_arg : (raiseError c s).arg = s.arg := rfl
@[simp] theorem raiseError_res : (raiseError c s).res = s.res := rfl
@[simp] theorem raiseError_cnt : (raiseError c s).cnt = 0 := rfl
@[simp] theorem raiseError_type : (raiseError c s).type = s.type := rfl
@[simp] theorem raiseError_w : (raiseError c s).w = s.w := rfl
@[simp] theorem raiseError_latch : (raiseError c s).latch = idleLatch s.freeCount := rfl
@[simp] theorem raiseError_pcgDefaultInc : (raiseError c s).pcgDefaultInc = s.pcgDefaultInc := rfl
@[simp] theorem raiseError_host : (raiseError c s).host = s.host := rfl
@[simp] theorem raiseError_turns : (raiseError c s).turns = s.turns := rfl
@[simp] theorem raiseError_reads : (raiseError c s).reads = s.reads := rfl
@[simp] theorem raiseError_freeCount : (raiseError c s).freeCount = s.freeCount + 1 := rfl

end

/-! ### `configure` -/

section
variable (e : Engine) (w : Words4) (s : State)

@[simp] theorem configure_ie : (configure e w s).ie = s.ie := rfl
@[simp] theorem configure_busy : (configure e w s).busy = false := rfl
@[simp] theorem configure_done : (configure e w s).done = true := rfl
@[simp] theorem configure_ovr : (configure e w s).ovr = s.ovr := rfl
@[simp] theorem configure_err : (configure e w s).err = .ok := rfl
@[simp] theorem configure_arg : (configure e w s).arg = s.arg := rfl
@[simp] theorem configure_res : (configure e w s).res = s.res := rfl
@[simp] theorem configure_cnt : (configure e w s).cnt = s.latch.n := rfl
@[simp] theorem configure_type : (configure e w s).type = some e := rfl
@[simp] theorem configure_w : (configure e w s).w = w := rfl
@[simp] theorem configure_latch : (configure e w s).latch = idleLatch s.freeCount := rfl
@[simp] theorem configure_pcgDefaultInc : (configure e w s).pcgDefaultInc = s.pcgDefaultInc := rfl
@[simp] theorem configure_host : (configure e w s).host = s.host := rfl
@[simp] theorem configure_turns : (configure e w s).turns = s.turns := rfl
@[simp] theorem configure_reads : (configure e w s).reads = s.reads := rfl
@[simp] theorem configure_freeCount : (configure e w s).freeCount = s.freeCount + 1 := rfl

end

/-! ### `acceptCommand` -/

section
variable (v : Word) (s : State)

@[simp] theorem acceptCommand_ie : (acceptCommand v s).ie = s.ie := rfl
@[simp] theorem acceptCommand_busy : (acceptCommand v s).busy = true := rfl
@[simp] theorem acceptCommand_done : (acceptCommand v s).done = false := rfl
@[simp] theorem acceptCommand_ovr : (acceptCommand v s).ovr = s.ovr := rfl
@[simp] theorem acceptCommand_err : (acceptCommand v s).err = s.err := rfl
@[simp] theorem acceptCommand_arg : (acceptCommand v s).arg = s.arg := rfl
@[simp] theorem acceptCommand_res : (acceptCommand v s).res = s.res := rfl
@[simp] theorem acceptCommand_cnt : (acceptCommand v s).cnt = s.cnt := rfl
@[simp] theorem acceptCommand_type : (acceptCommand v s).type = s.type := rfl
@[simp] theorem acceptCommand_w : (acceptCommand v s).w = s.w := rfl
@[simp] theorem acceptCommand_latch : (acceptCommand v s).latch = acceptedLatch v s.arg := rfl
@[simp] theorem acceptCommand_pcgDefaultInc : (acceptCommand v s).pcgDefaultInc = s.pcgDefaultInc := rfl
@[simp] theorem acceptCommand_host : (acceptCommand v s).host = s.host := rfl
@[simp] theorem acceptCommand_turns : (acceptCommand v s).turns = s.turns := rfl
@[simp] theorem acceptCommand_reads : (acceptCommand v s).reads = s.reads := rfl
@[simp] theorem acceptCommand_freeCount : (acceptCommand v s).freeCount = s.freeCount := rfl

end

/-! ### `placeCommand` -/

section
variable (v : Word) (s : State)

@[simp] theorem placeCommand_ie : (placeCommand v s).ie = s.ie := rfl
@[simp] theorem placeCommand_busy : (placeCommand v s).busy = true := rfl
@[simp] theorem placeCommand_done : (placeCommand v s).done = false := rfl
@[simp] theorem placeCommand_ovr : (placeCommand v s).ovr = s.ovr := rfl
@[simp] theorem placeCommand_err : (placeCommand v s).err = s.err := rfl
@[simp] theorem placeCommand_arg : (placeCommand v s).arg = s.arg := rfl
@[simp] theorem placeCommand_res : (placeCommand v s).res = s.res := rfl
@[simp] theorem placeCommand_cnt : (placeCommand v s).cnt = s.cnt := rfl
@[simp] theorem placeCommand_type : (placeCommand v s).type = s.type := rfl
@[simp] theorem placeCommand_w : (placeCommand v s).w = s.w := rfl
@[simp] theorem placeCommand_latch : (placeCommand v s).latch = acceptedLatch v s.arg := rfl
@[simp] theorem placeCommand_pcgDefaultInc : (placeCommand v s).pcgDefaultInc = s.pcgDefaultInc := rfl
@[simp] theorem placeCommand_host : (placeCommand v s).host = s.host := rfl
@[simp] theorem placeCommand_turns : (placeCommand v s).turns = .engine :: s.turns := rfl
@[simp] theorem placeCommand_reads : (placeCommand v s).reads = s.reads := rfl
@[simp] theorem placeCommand_freeCount : (placeCommand v s).freeCount = s.freeCount := rfl

end

/-! ### `writeStatus` -/

section
variable (v : Word) (s : State)

@[simp] theorem writeStatus_ie : (writeStatus v s).ie = s.ie := rfl
@[simp] theorem writeStatus_busy : (writeStatus v s).busy = s.busy := rfl
@[simp] theorem writeStatus_done : (writeStatus v s).done = (s.done && !v.getLsbD 1) := rfl
@[simp] theorem writeStatus_ovr : (writeStatus v s).ovr = (s.ovr && !v.getLsbD 2) := rfl
@[simp] theorem writeStatus_err : (writeStatus v s).err = s.err := rfl
@[simp] theorem writeStatus_arg : (writeStatus v s).arg = s.arg := rfl
@[simp] theorem writeStatus_res : (writeStatus v s).res = s.res := rfl
@[simp] theorem writeStatus_cnt : (writeStatus v s).cnt = s.cnt := rfl
@[simp] theorem writeStatus_type : (writeStatus v s).type = s.type := rfl
@[simp] theorem writeStatus_w : (writeStatus v s).w = s.w := rfl
@[simp] theorem writeStatus_latch : (writeStatus v s).latch = s.latch := rfl
@[simp] theorem writeStatus_pcgDefaultInc : (writeStatus v s).pcgDefaultInc = s.pcgDefaultInc := rfl
@[simp] theorem writeStatus_host : (writeStatus v s).host = s.host := rfl
@[simp] theorem writeStatus_turns : (writeStatus v s).turns = s.turns := rfl
@[simp] theorem writeStatus_reads : (writeStatus v s).reads = s.reads := rfl
@[simp] theorem writeStatus_freeCount : (writeStatus v s).freeCount = s.freeCount := rfl

end

/-! ### `writeCtrl` -/

section
variable (v : Word) (s : State)

@[simp] theorem writeCtrl_ie : (writeCtrl v s).ie = v.getLsbD 0 := rfl
@[simp] theorem writeCtrl_busy : (writeCtrl v s).busy = s.busy := rfl
@[simp] theorem writeCtrl_done : (writeCtrl v s).done = s.done := rfl
@[simp] theorem writeCtrl_ovr : (writeCtrl v s).ovr = s.ovr := rfl
@[simp] theorem writeCtrl_err : (writeCtrl v s).err = s.err := rfl
@[simp] theorem writeCtrl_arg : (writeCtrl v s).arg = s.arg := rfl
@[simp] theorem writeCtrl_res : (writeCtrl v s).res = s.res := rfl
@[simp] theorem writeCtrl_cnt : (writeCtrl v s).cnt = s.cnt := rfl
@[simp] theorem writeCtrl_type : (writeCtrl v s).type = s.type := rfl
@[simp] theorem writeCtrl_w : (writeCtrl v s).w = s.w := rfl
@[simp] theorem writeCtrl_latch : (writeCtrl v s).latch = s.latch := rfl
@[simp] theorem writeCtrl_pcgDefaultInc : (writeCtrl v s).pcgDefaultInc = s.pcgDefaultInc := rfl
@[simp] theorem writeCtrl_host : (writeCtrl v s).host = s.host := rfl
@[simp] theorem writeCtrl_turns : (writeCtrl v s).turns = s.turns := rfl
@[simp] theorem writeCtrl_reads : (writeCtrl v s).reads = s.reads := rfl
@[simp] theorem writeCtrl_freeCount : (writeCtrl v s).freeCount = s.freeCount := rfl

end

/-! ### `afterDraw` -/

section
variable (e : Engine) (s : State)

@[simp] theorem afterDraw_ie : (afterDraw e s).ie = s.ie := rfl
@[simp] theorem afterDraw_busy : (afterDraw e s).busy = s.busy := rfl
@[simp] theorem afterDraw_done : (afterDraw e s).done = s.done := rfl
@[simp] theorem afterDraw_ovr : (afterDraw e s).ovr = s.ovr := rfl
@[simp] theorem afterDraw_err : (afterDraw e s).err = s.err := rfl
@[simp] theorem afterDraw_arg : (afterDraw e s).arg = s.arg := rfl
@[simp] theorem afterDraw_res : (afterDraw e s).res = s.res := rfl
@[simp] theorem afterDraw_cnt : (afterDraw e s).cnt = s.cnt := rfl
@[simp] theorem afterDraw_type : (afterDraw e s).type = s.type := rfl
@[simp] theorem afterDraw_w : (afterDraw e s).w = (nextWord e s.w).2 := rfl
@[simp] theorem afterDraw_latch : (afterDraw e s).latch = ⟨s.latch.cmd, s.latch.args, s.latch.first, s.latch.n + 1⟩ := rfl
@[simp] theorem afterDraw_pcgDefaultInc : (afterDraw e s).pcgDefaultInc = s.pcgDefaultInc := rfl
@[simp] theorem afterDraw_host : (afterDraw e s).host = s.host := rfl
@[simp] theorem afterDraw_turns : (afterDraw e s).turns = s.turns := rfl
@[simp] theorem afterDraw_reads : (afterDraw e s).reads = s.reads := rfl
@[simp] theorem afterDraw_freeCount : (afterDraw e s).freeCount = s.freeCount := rfl

end

/-! ### `hostRead` -/

section
variable (r : Reg) (s : State)

@[simp] theorem hostRead_ie : (hostRead r s).ie = s.ie := rfl
@[simp] theorem hostRead_busy : (hostRead r s).busy = s.busy := rfl
@[simp] theorem hostRead_done : (hostRead r s).done = s.done := rfl
@[simp] theorem hostRead_ovr : (hostRead r s).ovr = s.ovr := rfl
@[simp] theorem hostRead_err : (hostRead r s).err = s.err := rfl
@[simp] theorem hostRead_arg : (hostRead r s).arg = s.arg := rfl
@[simp] theorem hostRead_res : (hostRead r s).res = s.res := rfl
@[simp] theorem hostRead_cnt : (hostRead r s).cnt = s.cnt := rfl
@[simp] theorem hostRead_type : (hostRead r s).type = s.type := rfl
@[simp] theorem hostRead_w : (hostRead r s).w = s.w := rfl
@[simp] theorem hostRead_latch : (hostRead r s).latch = s.latch := rfl
@[simp] theorem hostRead_pcgDefaultInc : (hostRead r s).pcgDefaultInc = s.pcgDefaultInc := rfl
@[simp] theorem hostRead_host : (hostRead r s).host = s.host := rfl
@[simp] theorem hostRead_turns : (hostRead r s).turns = s.turns := rfl
@[simp] theorem hostRead_reads : (hostRead r s).reads = s.reads ++ [readReg s r] := rfl
@[simp] theorem hostRead_freeCount : (hostRead r s).freeCount = s.freeCount := rfl

end

/-! ### `resetBlock` -/

section
variable (s : State)

@[simp] theorem resetBlock_ie : (resetBlock s).ie = false := rfl
@[simp] theorem resetBlock_busy : (resetBlock s).busy = false := rfl
@[simp] theorem resetBlock_done : (resetBlock s).done = false := rfl
@[simp] theorem resetBlock_ovr : (resetBlock s).ovr = false := rfl
@[simp] theorem resetBlock_err : (resetBlock s).err = .ok := rfl
@[simp] theorem resetBlock_arg : (resetBlock s).arg = Words4.zero := rfl
@[simp] theorem resetBlock_res : (resetBlock s).res = Words4.zero := rfl
@[simp] theorem resetBlock_cnt : (resetBlock s).cnt = 0 := rfl
@[simp] theorem resetBlock_type : (resetBlock s).type = none := rfl
@[simp] theorem resetBlock_w : (resetBlock s).w = Words4.zero := rfl
@[simp] theorem resetBlock_latch : (resetBlock s).latch = idleLatch s.freeCount := rfl
@[simp] theorem resetBlock_pcgDefaultInc : (resetBlock s).pcgDefaultInc = s.pcgDefaultInc := rfl
@[simp] theorem resetBlock_host : (resetBlock s).host = s.host := rfl
@[simp] theorem resetBlock_turns : (resetBlock s).turns = s.turns := rfl
@[simp] theorem resetBlock_reads : (resetBlock s).reads = s.reads := rfl
@[simp] theorem resetBlock_freeCount : (resetBlock s).freeCount = s.freeCount + 1 := rfl

end

/-! ### Four-word groups and result assignments -/

@[simp] theorem assignRes_nil (q : Words4) : assignRes [] q = q := rfl

@[simp] theorem assignRes_cons (k : Fin 4) (v : Word) (r : List (Fin 4 × Word)) (q : Words4) :
    assignRes ((k, v) :: r) q = assignRes r (q.set k v) := rfl

@[simp] theorem set_zero (q : Words4) (v : Word) : q.set 0 v = ⟨v, q.w1, q.w2, q.w3⟩ := rfl
@[simp] theorem set_one (q : Words4) (v : Word) : q.set 1 v = ⟨q.w0, v, q.w2, q.w3⟩ := rfl
@[simp] theorem set_two (q : Words4) (v : Word) : q.set 2 v = ⟨q.w0, q.w1, v, q.w3⟩ := rfl
@[simp] theorem set_three (q : Words4) (v : Word) : q.set 3 v = ⟨q.w0, q.w1, q.w2, v⟩ := rfl

theorem get_set_same (q : Words4) (k : Fin 4) (v : Word) : (q.set k v).get k = v := by
  fin_cases k <;> rfl

theorem get_set_other (q : Words4) (j k : Fin 4) (v : Word) (h : j ≠ k) : (q.set k v).get j = q.get j := by
  fin_cases k <;> fin_cases j <;> first | rfl | exact absurd rfl h

/-! ### `afterDraw64`: one draw, or two on a 32-bit engine -/

theorem afterDraw64_pcg (e : Engine) (s : State) (h : width e = 32) :
    afterDraw64 e s = afterDraw e (afterDraw e s) := if_pos h

theorem afterDraw64_wide (e : Engine) (s : State) (h : width e ≠ 32) : afterDraw64 e s = afterDraw e s := if_neg h

section
variable (e : Engine) (s : State)

@[simp] theorem afterDraw64_ie : (afterDraw64 e s).ie = s.ie := by unfold afterDraw64; split <;> rfl
@[simp] theorem afterDraw64_busy : (afterDraw64 e s).busy = s.busy := by unfold afterDraw64; split <;> rfl
@[simp] theorem afterDraw64_done : (afterDraw64 e s).done = s.done := by unfold afterDraw64; split <;> rfl
@[simp] theorem afterDraw64_ovr : (afterDraw64 e s).ovr = s.ovr := by unfold afterDraw64; split <;> rfl
@[simp] theorem afterDraw64_err : (afterDraw64 e s).err = s.err := by unfold afterDraw64; split <;> rfl
@[simp] theorem afterDraw64_arg : (afterDraw64 e s).arg = s.arg := by unfold afterDraw64; split <;> rfl
@[simp] theorem afterDraw64_res : (afterDraw64 e s).res = s.res := by unfold afterDraw64; split <;> rfl
@[simp] theorem afterDraw64_cnt : (afterDraw64 e s).cnt = s.cnt := by unfold afterDraw64; split <;> rfl
@[simp] theorem afterDraw64_type : (afterDraw64 e s).type = s.type := by unfold afterDraw64; split <;> rfl
@[simp] theorem afterDraw64_pcgDefaultInc : (afterDraw64 e s).pcgDefaultInc = s.pcgDefaultInc := by unfold afterDraw64; split <;> rfl
@[simp] theorem afterDraw64_host : (afterDraw64 e s).host = s.host := by unfold afterDraw64; split <;> rfl
@[simp] theorem afterDraw64_turns : (afterDraw64 e s).turns = s.turns := by unfold afterDraw64; split <;> rfl
@[simp] theorem afterDraw64_reads : (afterDraw64 e s).reads = s.reads := by unfold afterDraw64; split <;> rfl
@[simp] theorem afterDraw64_freeCount : (afterDraw64 e s).freeCount = s.freeCount := by unfold afterDraw64; split <;> rfl
@[simp] theorem afterDraw64_latch_cmd : (afterDraw64 e s).latch.cmd = s.latch.cmd := by unfold afterDraw64; split <;> rfl
@[simp] theorem afterDraw64_latch_args : (afterDraw64 e s).latch.args = s.latch.args := by unfold afterDraw64; split <;> rfl
@[simp] theorem afterDraw64_latch_first : (afterDraw64 e s).latch.first = s.latch.first := by unfold afterDraw64; split <;> rfl

end

end Sys2Proof.Machine
end

