-- ==== Sys2Proof/Laws/Ops.lean ====
section
/-! SUPPORT. For each shared operation, once, what it can answer. -/

namespace Sys2Proof.Machine

/-! ### The register map -/

/-- A register begins at an offset exactly when the map says so (R21). -/
theorem regAt_eq_some (off : Nat) (r : Reg) : regAt off = some r ↔ regOffset r = off := by
  constructor
  · intro h
    have := List.find?_some h
    simpa using this
  · rintro rfl
    cases r <;> rfl

/-- The offsets of registers are the multiples of 8 below `REG_SPACE` (R51). -/
theorem regAt_isSome (off : Nat) : (regAt off).isSome = true ↔ off % 8 = 0 ∧ off < Config.regSpace := by
  constructor
  · intro h
    obtain ⟨r, hr⟩ := Option.isSome_iff_exists.mp h
    rw [regAt_eq_some] at hr
    subst hr
    cases r <;> decide
  · rintro ⟨h8, hlt⟩
    have : ∀ k < Config.regSpace, k % 8 = 0 → (regAt k).isSome = true := by decide
    exact this off hlt h8

/-- Where an access lands (R51): on a register, in the space but refused, or elsewhere. -/
theorem target_eq_reg (off width : Nat) (r : Reg) : target off width = .reg r ↔ width = 8 ∧ regOffset r = off := by
  unfold target
  constructor
  · intro h
    split at h
    · cases h
    · split at h
      · rename_i hw
        split at h
        · rename_i r' hr
          cases h
          exact ⟨hw, (regAt_eq_some _ _).mp hr⟩
        · cases h
      · cases h
  · rintro ⟨rfl, rfl⟩
    cases r <;> rfl

theorem target_eq_elsewhere (off width : Nat) : target off width = .elsewhere ↔ Config.regSpace ≤ off := by
  unfold target
  split
  · simp_all
  · split
    · split <;> simp_all
    · simp_all

/-- An access is refused exactly when it begins in the space and is not defined (R51). -/
theorem target_eq_refused (off width : Nat) :
    target off width = .refused ↔ off < Config.regSpace ∧ definedAccess off width = false := by
  have hs := regAt_isSome off
  unfold target definedAccess
  by_cases h : Config.regSpace ≤ off
  · simp [h, Nat.not_lt.mpr h]
  · have hlt := Nat.lt_of_not_le h
    by_cases hw : width = 8
    · cases hr : regAt off with
      | none => simp_all
      | some r => simp [hr] at hs; simp [h, hw, hs]
    · simp [h, hw, hlt]

/-! ### Acceptance -/

theorem writeCmd_busy (v : Word) (s : State) (h : s.busy = true) : writeCmd v s = { s with ovr := true } := if_pos h

theorem writeCmd_idle (v : Word) (s : State) (h : s.busy = false) : writeCmd v s = acceptCommand v s := by
  simp [writeCmd, h]

/-! ### The `STATUS` word -/

/-- Bit 0 of a read of `STATUS` is `BUSY` (R26). -/
theorem status_bit0 (s : State) : (readReg s .status).getLsbD 0 = s.busy := by
  simp only [readReg, statusWord]
  generalize (0 : BitVec 48) ++ sizeCode s.type ++ typeCode s.type ++ s.err.code ++ (0 : BitVec 1) ++ flagBit s.ovr
    ++ flagBit s.done = p
  exact (BitVec.getLsbD_append (x := p) (y := flagBit s.busy) (i := 0)).trans (by cases s.busy <;> rfl)

/-- A `wait` that reads `BUSY` = 1 stays (R81). -/
theorem hostWait_busy (rest : List HostOp) (s : State) (h : s.busy = true) : hostWait rest s = s := by
  rw [hostWait, status_bit0, if_pos h]

/-- A `wait` that reads `BUSY` = 0 gives way to what follows (R81). -/
theorem hostWait_idle (rest : List HostOp) (s : State) (h : s.busy = false) :
    hostWait rest s = { s with host := rest } := by
  rw [hostWait, status_bit0, if_neg (by simp [h])]

/-! ### The rule of a command on the configured engine -/

theorem whenConfigured_none (s : State) (f : Engine → State → State) (h : s.type = none) :
    whenConfigured s f = .next (raiseError .notConfigured s) := by
  simp [whenConfigured, h]

theorem whenConfigured_some (s : State) (f : Engine → State → State) (e : Engine) (h : s.type = some e) :
    whenConfigured s f = .next (f e s) := by
  simp [whenConfigured, h]

/-- Everything `whenConfigured` can answer. -/
theorem whenConfigured_cases {s t : State} {f : Engine → State → State} (h : whenConfigured s f = .next t) :
    (s.type = none ∧ t = raiseError .notConfigured s) ∨ ∃ e, s.type = some e ∧ t = f e s := by
  cases ht : s.type with
  | none =>
    rw [whenConfigured_none s f ht] at h
    exact .inl ⟨rfl, (Host.Outcome.next.inj h).symm⟩
  | some e =>
    rw [whenConfigured_some s f e ht] at h
    exact .inr ⟨e, rfl, (Host.Outcome.next.inj h).symm⟩

/-! ### The end of a candidate -/

@[simp] theorem endCandidate_some (r : Word) (s : State) : endCandidate (some r) s = complete [(0, r)] s := rfl

@[simp] theorem endCandidate_none (s : State) :
    endCandidate none s = { s with latch := { s.latch with first := false } } := rfl

/-! ### What a register write can touch -/

/-- No register write changes what only the engine and reset write (R23, R28, R29, R34). -/
theorem writeReg_engine (r : Reg) (v : Word) (s : State) :
    (writeReg r v s).res = s.res ∧ (writeReg r v s).cnt = s.cnt ∧ (writeReg r v s).err = s.err ∧
      (writeReg r v s).type = s.type ∧ (writeReg r v s).w = s.w ∧
      (writeReg r v s).pcgDefaultInc = s.pcgDefaultInc ∧ (writeReg r v s).freeCount = s.freeCount ∧
      (writeReg r v s).host = s.host ∧ (writeReg r v s).turns = s.turns ∧ (writeReg r v s).reads = s.reads := by
  cases r <;> simp only [writeReg, writeStatus, writeCtrl, writeCmd, acceptCommand, and_self]
  split <;> simp only [and_self]

/-- While a command runs, no register write touches it (R36, R64). -/
theorem writeReg_latch (r : Reg) (v : Word) (s : State) (h : s.busy = true) :
    (writeReg r v s).busy = true ∧ (writeReg r v s).latch = s.latch := by
  cases r <;> simp [writeReg, writeStatus, writeCtrl, writeCmd, h]

/-- A register write starts a command exactly when the register is `CMD` and the block is idle (R36). -/
theorem writeReg_idle (r : Reg) (v : Word) (s : State) (h : s.busy = false) :
    (r = .cmd ∧ writeReg r v s = acceptCommand v s) ∨ (writeReg r v s).busy = false := by
  cases r <;> simp [writeReg, writeStatus, writeCtrl, writeCmd, h]

end Sys2Proof.Machine
end

