-- ==== Sys2Proof/Laws/Step.lean ====
section
/-! SUPPORT. What a step can do, said once: proofs about `step` take these cases and do not unfold it. -/

namespace Sys2Proof.Machine

/-- Everything a host operation can answer with a next state (R52, R53, R81). -/
theorem hostOp_cases {op : HostOp} {rest : List HostOp} {s t : State} (h : hostOp op rest s = .next t) :
    (∃ r, t = hostRead r { s with host := rest }) ∨
      (∃ r v, op = .wr (regOffset r) 8 v ∧ t = writeReg r v { s with host := rest }) ∨
      (op = .wait ∧ t = hostWait rest s) := by
  cases op with
  | rd off width =>
    simp only [hostOp] at h
    split at h
    · rename_i r _
      exact .inl ⟨r, (Host.Outcome.next.inj h).symm⟩
    · cases h
    · cases h
  | wr off width v =>
    simp only [hostOp] at h
    split at h
    · rename_i r hr
      obtain ⟨rfl, rfl⟩ := (target_eq_reg _ _ _).mp hr
      exact .inr (.inl ⟨r, v, rfl, (Host.Outcome.next.inj h).symm⟩)
    · cases h
    · cases h
  | wait => exact .inr (.inr ⟨rfl, (Host.Outcome.next.inj h).symm⟩)

/-- `wait` either stays as it is or gives way to what follows (R81). -/
theorem hostWait_cases (rest : List HostOp) (s : State) :
    hostWait rest s = s ∨ hostWait rest s = { s with host := rest } := by
  unfold hostWait
  split <;> simp

/-- Everything a turn can answer with a next state. -/
theorem takeTurn_cases {k : Turn} {s t : State} (h : takeTurn k s = .next t) :
    (k = .host ∧ s.host = [] ∧ t = s) ∨
      (k = .host ∧ ∃ op rest, s.host = op :: rest ∧ hostOp op rest s = .next t) ∨
      (k = .engine ∧ s.busy = false ∧ t = s) ∨
      (k = .engine ∧ s.busy = true ∧ engineStep s = .next t) ∨
      (k = .reset ∧ t = resetBlock s) := by
  cases k with
  | host =>
    simp only [takeTurn, hostTurn] at h
    split at h
    · exact .inl ⟨rfl, ‹_›, (Host.Outcome.next.inj h).symm⟩
    · exact .inr (.inl ⟨rfl, _, _, ‹_›, h⟩)
  | engine =>
    simp only [takeTurn, engineTurn] at h
    split at h
    · exact .inr (.inr (.inr (.inl ⟨rfl, ‹_›, h⟩)))
    · rename_i hb
      exact .inr (.inr (.inl ⟨rfl, by simpa using hb, (Host.Outcome.next.inj h).symm⟩))
  | reset => exact .inr (.inr (.inr (.inr ⟨rfl, (Host.Outcome.next.inj h).symm⟩)))

/-- A step is one turn: the schedule's head on the state without it, or the fair choice where the schedule is empty. -/
theorem step_turn (s : State) :
    (s.turns = [] ∧ step s = takeTurn (fairTurn s) s) ∨
      ∃ k rest, s.turns = k :: rest ∧ step s = takeTurn k { s with turns := rest } := by
  cases h : s.turns with
  | nil => exact .inl ⟨rfl, by simp [step, transition, h]⟩
  | cons k rest => exact .inr ⟨k, rest, rfl, by simp [step, transition, h]⟩

/-- Everything an engine step can answer with a next state: an illegal word's completion, or the decoded command's step. -/
theorem engineStep_cases {s t : State} (h : engineStep s = .next t) :
    (∃ r, decode s.latch.cmd = .illegal r ∧ t = raiseError .illegalCommand s) ∨
      ∃ i, decode s.latch.cmd = .ok i ∧ exec i s = .next t := by
  unfold engineStep at h
  split at h
  · exact .inl ⟨_, ‹_›, (Host.Outcome.next.inj h).symm⟩
  · exact .inr ⟨_, ‹_›, h⟩

end Sys2Proof.Machine
end

