-- ==== Sys2Proof/Laws/Exec.lean ====
section
/-! SUPPORT. One lemma for each command's meaning: what one engine step of it answers. -/

namespace Sys2Proof.Machine

/-! ### Every command that needs an engine ends with NOT_CONFIGURED while there is none (R29) -/

/-- A command that is not a configuring one is a rule of the configured engine. -/
theorem exec_whenConfigured (i : Instr) (hi : configuring i = false) :
    ∃ rule, ∀ s, exec i s = whenConfigured s rule := by
  cases i with
  | seed1 | seed2 | load => simp [configuring] at hi
  | save | restore | size | nextw | next32 | next64 | bnd32 | bnd64 => exact ⟨_, fun _ => rfl⟩

theorem exec_unconfigured (i : Instr) (s : State) (hi : configuring i = false) (h : s.type = none) :
    exec i s = .next (raiseError .notConfigured s) := by
  obtain ⟨rule, hr⟩ := exec_whenConfigured i hi
  rw [hr, whenConfigured_none s rule h]

section
variable {s : State} {e : Engine}

/-! ### Draws -/

theorem execNextw_some (h : s.type = some e) :
    execNextw s = .next (complete [(0, drawn e s)] (afterDraw e s)) := whenConfigured_some s _ e h

theorem execNext32_some (h : s.type = some e) :
    execNext32 s = .next (complete [(0, (drawn32 e s).setWidth 64)] (afterDraw e s)) := whenConfigured_some s _ e h

theorem execNext64_some (h : s.type = some e) :
    execNext64 s = .next (complete [(0, drawn64 e s)] (afterDraw64 e s)) := whenConfigured_some s _ e h

/-! ### Bounded commands -/

theorem execBnd32_bad (h : s.type = some e) (hf : s.latch.first = true) (hl : badLimit (limit32 s) = true) :
    execBnd32 s = .next (raiseError .invalidArgument s) := by
  rw [execBnd32, whenConfigured_some s _ e h, if_pos (by simp [hf, hl])]

theorem execBnd32_candidate (h : s.type = some e) (hl : s.latch.first = false ∨ badLimit (limit32 s) = false) :
    execBnd32 s = .next (endCandidate ((candidate32 e s).map (BitVec.setWidth 64)) (afterDraw e s)) := by
  rw [execBnd32, whenConfigured_some s _ e h, if_neg]
  rcases hl with hl | hl <;> simp [hl]

theorem execBnd64_bad (h : s.type = some e) (hf : s.latch.first = true) (hl : badLimit (limit64 s) = true) :
    execBnd64 s = .next (raiseError .invalidArgument s) := by
  rw [execBnd64, whenConfigured_some s _ e h, if_pos (by simp [hf, hl])]

theorem execBnd64_candidate (h : s.type = some e) (hl : s.latch.first = false ∨ badLimit (limit64 s) = false) :
    execBnd64 s = .next (endCandidate (candidate64 e s) (afterDraw64 e s)) := by
  rw [execBnd64, whenConfigured_some s _ e h, if_neg]
  rcases hl with hl | hl <;> simp [hl]

/-! ### Configuration and snapshots -/

theorem execSeed2_some {ty : Engine} {w : Words4} (h : seedWords2 ty (seed0Operand s) (seed1Operand s) = some w) :
    execSeed2 ty s = .next (configure ty w s) := by
  simp [execSeed2, h]

theorem execSeed2_none {ty : Engine} (h : seedWords2 ty (seed0Operand s) (seed1Operand s) = none) :
    execSeed2 ty s = .next (raiseError .illegalCommand s) := by
  simp [execSeed2, h]

theorem execSize_some (h : s.type = some e) :
    execSize s = .next (complete [(0, (stateSize e).setWidth 64)] s) := whenConfigured_some s _ e h

theorem execSave_some (h : s.type = some e) :
    execSave s = .next (complete [(0, (snapshotWords e s.w).w0), (1, (snapshotWords e s.w).w1),
      (2, (snapshotWords e s.w).w2), (3, (snapshotWords e s.w).w3)] s) := whenConfigured_some s _ e h

theorem execRestore_ok {tag len : BitVec 4} {w : Words4} (h : s.type = some e)
    (ht : tagAndLengthOk e tag len = true) (hw : restoreWords e (snapshotOperands s) = some w) :
    execRestore tag len s = .next (complete [] { s with w := w }) := by
  simp [execRestore, whenConfigured_some s _ e h, ht, hw]

theorem execRestore_bad {tag len : BitVec 4} (h : s.type = some e)
    (hb : tagAndLengthOk e tag len = false ∨ restoreWords e (snapshotOperands s) = none) :
    execRestore tag len s = .next (raiseError .invalidState s) := by
  rcases hb with hb | hb <;> cases ht : tagAndLengthOk e tag len <;>
    simp_all [execRestore, whenConfigured_some s _ e h]

end

/-! ### The engine invariant, engine by engine (R31) -/

theorem engineOk_none (w : Words4) : EngineOk none w ↔ w = Words4.zero := Iff.rfl

theorem engineOk_pcg (w : Words4) (e : Engine) (he : width e = 32) :
    EngineOk (some e) w ↔ w.w1.getLsbD 0 = true ∧ w.w2 = 0 ∧ w.w3 = 0 := by
  cases e with
  | pcgXshRr32 => exact Iff.rfl
  | pcgXshRs32 => exact Iff.rfl
  | xrs128pp => cases he
  | l64x128mix => cases he

theorem engineOk_xrs (w : Words4) :
    EngineOk (some .xrs128pp) w ↔ ¬(w.w0 = 0 ∧ w.w1 = 0) ∧ w.w2 = 0 ∧ w.w3 = 0 := Iff.rfl

theorem engineOk_lxm (w : Words4) :
    EngineOk (some .l64x128mix) w ↔ ¬(w.w2 = 0 ∧ w.w3 = 0) ∧ w.w0.getLsbD 0 = true := Iff.rfl

/-- A draw keeps the engine's invariant (R31, R141, R163, R183). -/
theorem engineOk_nextWord (e : Engine) (w : Words4) (h : EngineOk (some e) w) : EngineOk (some e) (nextWord e w).2 := by
  cases e with
  | pcgXshRr32 => rw [nextWord_rr_state, engineOk_pcg _ _ rfl]; exact (engineOk_pcg w _ rfl).mp h
  | pcgXshRs32 => rw [nextWord_rs_state, engineOk_pcg _ _ rfl]; exact (engineOk_pcg w _ rfl).mp h
  | xrs128pp =>
    rw [nextWord_xrs_state, engineOk_xrs, xrsUpdate_zero]
    exact (engineOk_xrs w).mp h
  | l64x128mix =>
    rw [nextWord_lxm_state, engineOk_lxm, xbgUpdate_zero]
    exact (engineOk_lxm w).mp h

/-! ### What a step of any command can answer -/

theorem sameOutside_refl (s : State) : SameOutside s s := ⟨rfl, rfl, rfl, rfl, rfl, rfl, rfl⟩

theorem sameOutside_afterDraw (e : Engine) (s : State) : SameOutside s (afterDraw e s) :=
  ⟨rfl, rfl, rfl, rfl, rfl, rfl, rfl⟩

theorem sameOutside_afterDraw64 (e : Engine) (s : State) : SameOutside s (afterDraw64 e s) := by
  simp [SameOutside]

/-- An error completion is whole: nothing but `ERR`, `CNT`, `DONE` and `BUSY` is written (R244). -/
theorem failed_raiseError (c : ErrCode) (s : State) : Failed s (raiseError c s) c :=
  ⟨rfl, rfl, rfl, rfl, rfl, rfl, rfl, rfl, rfl, rfl, rfl, rfl, rfl, rfl⟩

/-- A completion after an effect on the engine alone (R37). -/
theorem completed_complete (r : List (Fin 4 × Word)) {s s' : State} (h : SameOutside s s') :
    Completed s (complete r s') s'.latch.n := by
  obtain ⟨h1, h2, h3, h4, h5, h6, h7⟩ := h
  exact ⟨rfl, rfl, rfl, rfl, h1, h2, h3, h4, h5, h6, h7⟩

/-- Every command's step is an error completion, a successful completion after an effect on the engine alone, or, for a
bounded command on a configured engine, the end of a rejected candidate's step. -/
theorem exec_cases {i : Instr} {s t : State} (h : exec i s = .next t) :
    (∃ c, c ≠ .ok ∧ t = raiseError c s) ∨
      (∃ r s', t = complete r s' ∧ SameOutside s s' ∧ s'.res = s.res) ∨
      (boundedCommand i = true ∧ ∃ e, s.type = some e ∧
        (t = endCandidate none (afterDraw e s) ∨ t = endCandidate none (afterDraw64 e s))) := by
  by_cases hc : configuring i = false
  · cases ht : s.type with
    | none =>
      rw [exec_unconfigured i s hc ht] at h
      cases h
      exact .inl ⟨_, by simp, rfl⟩
    | some e =>
      cases i with
      | seed1 | seed2 | load => simp [configuring] at hc
      | save => rw [exec, execSave_some ht] at h; cases h; exact .inr (.inl ⟨_, s, rfl, sameOutside_refl s, rfl⟩)
      | size => rw [exec, execSize_some ht] at h; cases h; exact .inr (.inl ⟨_, s, rfl, sameOutside_refl s, rfl⟩)
      | nextw => rw [exec, execNextw_some ht] at h; cases h; exact .inr (.inl ⟨_, _, rfl, sameOutside_afterDraw e s, rfl⟩)
      | next32 => rw [exec, execNext32_some ht] at h; cases h; exact .inr (.inl ⟨_, _, rfl, sameOutside_afterDraw e s, rfl⟩)
      | next64 =>
        rw [exec, execNext64_some ht] at h; cases h
        exact .inr (.inl ⟨_, _, rfl, sameOutside_afterDraw64 e s, by simp⟩)
      | restore tag len =>
        rw [exec] at h
        by_cases hb : tagAndLengthOk e tag len = true
        · cases hw : restoreWords e (snapshotOperands s) with
          | none => rw [execRestore_bad ht (.inr hw)] at h; cases h; exact .inl ⟨_, by simp, rfl⟩
          | some w =>
            rw [execRestore_ok ht hb hw] at h; cases h
            exact .inr (.inl ⟨_, _, rfl, ⟨rfl, rfl, rfl, rfl, rfl, rfl, rfl⟩, rfl⟩)
        · rw [execRestore_bad ht (.inl (by simpa using hb))] at h; cases h; exact .inl ⟨_, by simp, rfl⟩
      | bnd32 =>
        rw [exec] at h
        by_cases hb : s.latch.first = true ∧ badLimit (limit32 s) = true
        · rw [execBnd32_bad ht hb.1 hb.2] at h; cases h; exact .inl ⟨_, by simp, rfl⟩
        · rw [execBnd32_candidate ht (by cases hf : s.latch.first <;> simp_all)] at h
          cases hv : Option.map (BitVec.setWidth 64) (candidate32 e s) with
          | none => rw [hv] at h; cases h; exact .inr (.inr ⟨rfl, e, rfl, .inl rfl⟩)
          | some v => rw [hv] at h; cases h; exact .inr (.inl ⟨_, _, rfl, sameOutside_afterDraw e s, rfl⟩)
      | bnd64 =>
        rw [exec] at h
        by_cases hb : s.latch.first = true ∧ badLimit (limit64 s) = true
        · rw [execBnd64_bad ht hb.1 hb.2] at h; cases h; exact .inl ⟨_, by simp, rfl⟩
        · rw [execBnd64_candidate ht (by cases hf : s.latch.first <;> simp_all)] at h
          cases hv : candidate64 e s with
          | none => rw [hv] at h; cases h; exact .inr (.inr ⟨rfl, e, rfl, .inr rfl⟩)
          | some v => rw [hv] at h; cases h; exact .inr (.inl ⟨_, _, rfl, sameOutside_afterDraw64 e s, by simp⟩)
  · cases i with
    | seed1 e => cases h; exact .inr (.inl ⟨_, _, rfl, ⟨rfl, rfl, rfl, rfl, rfl, rfl, rfl⟩, rfl⟩)
    | seed2 e =>
      rw [exec] at h
      cases hw : seedWords2 e (seed0Operand s) (seed1Operand s) with
      | none => rw [execSeed2_none hw] at h; cases h; exact .inl ⟨_, by simp, rfl⟩
      | some w =>
        rw [execSeed2_some hw] at h; cases h
        exact .inr (.inl ⟨_, _, rfl, ⟨rfl, rfl, rfl, rfl, rfl, rfl, rfl⟩, rfl⟩)
    | load => cases h; exact .inr (.inl ⟨_, _, rfl, ⟨rfl, rfl, rfl, rfl, rfl, rfl, rfl⟩, rfl⟩)
    | save | restore | size | nextw | next32 | next64 | bnd32 | bnd64 => simp [configuring] at hc

end Sys2Proof.Machine
end

