-- ==== Sys2Proof/Laws/PerInstr.lean ====
section
/-! SUPPORT. Statements for all instructions, one lemma per constructor. -/

namespace Sys2Proof.Laws.OpcodeRow

/-- The word a command is written with lies in its row of the opcode table (R72), its reserved bits 0 (R71). -/
def Statement (i : Sys2Proof.Instr) : Prop :=
  (∃ r ∈ Sys2Proof.opcodeRows, r.mnemonic = i.mnemonic ∧ Sys2Proof.encode i &&& r.mask = r.bits) ∧
    Sys2Proof.rsvField (Sys2Proof.encode i) = 0

theorem seed1 (ty : Sys2Proof.Engine) : Statement (.seed1 ty) := by cases ty <;> exact ⟨by decide, by decide⟩
theorem seed2 (ty : Sys2Proof.Engine) : Statement (.seed2 ty) := by cases ty <;> exact ⟨by decide, by decide⟩
theorem load : Statement .load := ⟨by decide, by decide⟩
theorem save : Statement .save := ⟨by decide, by decide⟩
theorem restore (tag len : BitVec 4) : Statement (.restore tag len) := by
  refine ⟨⟨⟨"RESTORE", 0x5, 0xFFFFFFFFFFFF00FF⟩, by decide, rfl, ?_⟩, ?_⟩ <;> (revert tag len; decide)
theorem size : Statement .size := ⟨by decide, by decide⟩
theorem nextw : Statement .nextw := ⟨by decide, by decide⟩
theorem next32 : Statement .next32 := ⟨by decide, by decide⟩
theorem next64 : Statement .next64 := ⟨by decide, by decide⟩
theorem bnd32 : Statement .bnd32 := ⟨by decide, by decide⟩
theorem bnd64 : Statement .bnd64 := ⟨by decide, by decide⟩

end Sys2Proof.Laws.OpcodeRow
end

