-- ==== Sys2Proof/Tests/Slice0.lean ====
section
/-! SUPPORT. Tests: what well-formedness refuses, words written out from the encoding tables, one step of each command against
the vectors of `95_test_vectors.md`, and a state that meets the hypotheses of each statement. -/

namespace Sys2Proof.Tests

open Sys2Proof.Machine

/-! ## Helpers -/

/-- A block at rest with this engine. -/
def idle (e : Option Engine) (w : Words4) : State := { State.reset with type := e, w := w }

/-- A block with this engine that has just accepted the command word `v` with operands `a`. -/
def running (v : Word) (a : Words4) (e : Option Engine) (w : Words4) : State :=
  acceptCommand v { idle e w with arg := a }

/-- What a step leaves, seen through `f`. -/
def seen {α : Type} (o : Host.Outcome State Fault Refusal) (f : State → α) : Option α :=
  match o with
  | .next t => some (f t)
  | .fault _ => none
  | .refused _ => none

/-- One engine step of the command word `v`: its results' first word, its draw count, its state words and its `STATUS`. -/
def run (v : Word) (a : Words4) (e : Engine) (w : Words4) : Option (Word × Word × Words4 × Word) :=
  seen (engineStep (running v a (some e) w)) (fun t => (t.res.w0, t.cnt, t.w, statusWord t))

/-- The PCG state of the doc seed (V1). -/
def doc : Words4 := ⟨0x86E906F946FC7F2E, 0x902C3684045292CB, 0, 0⟩

/-- The LXM doc words (L1.2). -/
def docLxm : Words4 := ⟨0xAFF65436B20AC0CD, 1, 0x33168D08F487818F, 0x57522A4615E4AA54⟩

/-- The XRS128PP state of `SEED1` 12 (V9). -/
def xrs12 : Words4 := ⟨0x8DDB360704C1DBF4, 0x0EE6968D06BF1579, 0, 0⟩

/-- One operand. -/
def arg1 (v : Word) : Words4 := ⟨v, 0, 0, 0⟩

/-! ## Well-formedness refuses each ill-formed term -/

theorem test_wf_seed2_lxm : (Instr.seed2 .l64x128mix).wf = false := by decide
theorem test_wf_rd_narrow : (HostOp.rd 0x10 4).wf = false := by decide
theorem test_wf_rd_unaligned : (HostOp.rd 0x14 8).wf = false := by decide
theorem test_wf_wr_wide : (HostOp.wr 0x10 16 0).wf = false := by decide
theorem test_wf_wr_beyond : (HostOp.wr 0x80 8 0).wf = false := by decide
theorem test_wf_args_none : (HostLine.args []).wf = false := by decide
theorem test_wf_args_five : (HostLine.args [0, 1, 2, 3, 4]).wf = false := by decide
theorem test_wf_cmd : (HostLine.cmd (.seed2 .l64x128mix)).wf = false := by decide
theorem test_wf_exec : (HostLine.exec (.seed2 .l64x128mix)).wf = false := by decide

/-! ## Decoding: words written out field by field from R71 and R72, as RSV, LEN, TY, OP -/

theorem test_decode_seed1 : decode ((0 : BitVec 48) ++ 0#4 ++ 0b0011#4 ++ 0b00000001#8) = .ok (.seed1 .xrs128pp) := by decide
theorem test_decode_seed2 : decode ((0 : BitVec 48) ++ 0#4 ++ 0b0010#4 ++ 0b00000010#8) = .ok (.seed2 .pcgXshRs32) := by decide
theorem test_decode_load : decode ((0 : BitVec 48) ++ 0#4 ++ 0b0100#4 ++ 0b00000011#8) = .ok .load := by decide
theorem test_decode_save : decode ((0 : BitVec 48) ++ 0#4 ++ 0b0000#4 ++ 0b00000100#8) = .ok .save := by decide
theorem test_decode_restore : decode ((0 : BitVec 48) ++ 0b0010#4 ++ 0b0001#4 ++ 0b00000101#8) = .ok (.restore 1 2) := by decide
theorem test_decode_size : decode ((0 : BitVec 48) ++ 0#4 ++ 0b0000#4 ++ 0b00000110#8) = .ok .size := by decide
theorem test_decode_nextw : decode ((0 : BitVec 48) ++ 0#4 ++ 0b0000#4 ++ 0b00010000#8) = .ok .nextw := by decide
theorem test_decode_next32 : decode ((0 : BitVec 48) ++ 0#4 ++ 0b0000#4 ++ 0b00010001#8) = .ok .next32 := by decide
theorem test_decode_next64 : decode ((0 : BitVec 48) ++ 0#4 ++ 0b0000#4 ++ 0b00010010#8) = .ok .next64 := by decide
theorem test_decode_bnd32 : decode ((0 : BitVec 48) ++ 0#4 ++ 0b0000#4 ++ 0b00100000#8) = .ok .bnd32 := by decide
theorem test_decode_bnd64 : decode ((0 : BitVec 48) ++ 0#4 ++ 0b0000#4 ++ 0b00100001#8) = .ok .bnd64 := by decide

/-- The illegal words of V26. -/
theorem test_decode_illegal :
    [0x0, 0x501, 0x1101, 0x402, 0x103, 0x4403, 0x104, 0x120, 0x1021, 0x013, 0x022, 0x007, 0x0FF, 0x10010,
      0x8000000000000010].all (fun v => decide ((decode v).instr? = none)) = true := by decide

/-- No word lies in two rows of the opcode table. -/
theorem test_opcode_rows_disjoint :
    opcodeRows.Pairwise (fun r q => r.bits &&& q.mask ≠ q.bits &&& r.mask) := by decide

/-- The table's numbering is the word's own (R70). -/
theorem test_decodeTableWord : decodeTableWord 64 0x2105 = some (.restore 1 2) ∧ decodeTableWord 72 0x10 = none := by decide

/-! ## One step of each command, from the vectors -/

/-- V9, seed 12. -/
theorem test_seed1_xrs : run 0x301 (arg1 12) .l64x128mix docLxm = some (0, 0, xrs12, 0x2302) := by decide
/-- V16, seed 1. -/
theorem test_seed1_lxm : run 0x401 (arg1 1) .pcgXshRr32 doc =
    some (0, 0, ⟨0x23085D6F7A569905, 1, 0x910A2DEC89025CC1, 0xBEEB8DA1658EEC67⟩, 0x4402) := by decide
/-- V1, and R188: the pair of SEED2 and L64X128MIX, given to the meaning itself. -/
theorem test_seed2_pcg : run 0x102 ⟨0x012DE1BABB3C4104, 0xC8161B4202294965, 0, 0⟩ .xrs128pp xrs12 =
    some (0, 0, doc, 0x2102) ∧
    seen (exec (.seed2 .l64x128mix) (running 0x402 Words4.zero none Words4.zero)) statusWord = some 0x42 := by decide
/-- V10, the pair that mixes to (0, 0). -/
theorem test_seed2_xrs_guard : run 0x302 ⟨0x61C8864680B583EB, 0xC3910C8D016B07D6, 0, 0⟩ .pcgXshRr32 doc =
    some (0, 0, ⟨0xA0CD4D7D70A692C9, 0x797691E7D73B9574, 0, 0⟩, 0x2302) := by decide
/-- V17, an even addend and an all-zero sub-state. -/
theorem test_load_zero : run 0x403 ⟨2, 5, 0, 0⟩ .xrs128pp xrs12 =
    some (0, 0, ⟨3, 5, 0x63033B0CA389C35A, 0xC097314D939736F8⟩, 0x4402) := by decide
/-- V17, a sub-state that is not all zero. -/
theorem test_load_kept : run 0x403 ⟨4, 7, 0, 1⟩ .xrs128pp xrs12 = some (0, 0, ⟨5, 7, 0, 1⟩, 0x4402) := by decide
/-- V7. -/
theorem test_save_pcg : seen (exec .save (running 0x004 Words4.zero (some .pcgXshRr32) doc)) (fun t => t.res) =
    some ⟨0x86E906F946FC7F2E, 0x48161B4202294965, 0, 0⟩ := by decide
/-- V8, bit 63 of S1 is shifted out. -/
theorem test_restore_pcg : run 0x2105 ⟨0x86E906F946FC7F2E, 0xC8161B4202294965, 0, 0⟩ .pcgXshRr32 ⟨5, 7, 0, 0⟩ =
    some (0, 0, doc, 0x2102) := by decide
/-- V18, an even addend. -/
theorem test_restore_even : run 0x4405 ⟨0xAFF65436B20AC0CC, 1, 0x33168D08F487818F, 0x57522A4615E4AA54⟩ .l64x128mix docLxm =
    some (0, 0, docLxm, 0x4422) := by decide
/-- V7. -/
theorem test_size_lxm : run 0x006 Words4.zero .l64x128mix docLxm = some (4, 0, docLxm, 0x4402) := by decide
/-- V19. -/
theorem test_size_unconfigured :
    seen (engineStep (running 0x006 Words4.zero none Words4.zero)) statusWord = some 0x32 := by decide
/-- V1, draw 0. -/
theorem test_nextw_rr : run 0x010 Words4.zero .pcgXshRr32 doc =
    some (0xE860DD24, 1, ⟨0x22E9945A6F92BFE1, 0x902C3684045292CB, 0, 0⟩, 0x2102) := by decide
/-- P2, line 3. -/
theorem test_nextw_lxm : run 0x010 Words4.zero .l64x128mix docLxm = some (0x93B7E549B4276205, 1,
    ⟨0xAFF65436B20AC0CD, 0x812A797A908DB062, 0xCBFEC1AC458B3D56, 0x2C657B6C8894E9DC⟩, 0x4402) := by decide
/-- V3, draw 0. -/
theorem test_next32_rs : (run 0x011 Words4.zero .pcgXshRs32 doc).map (fun r => (r.1, r.2.1)) =
    some (0xBA4138B8, 1) := by decide
/-- V9, seed 12: the high half of 0x27034D08E79D1577. -/
theorem test_next32_xrs : (run 0x011 Words4.zero .xrs128pp xrs12).map (fun r => (r.1, r.2.1)) =
    some (0x27034D08, 1) := by decide
/-- V2. -/
theorem test_next64_rr : (run 0x012 Words4.zero .pcgXshRr32 doc).map (fun r => (r.1, r.2.1)) =
    some (0xE860DD2415D339C0, 2) := by decide
/-- V11. -/
theorem test_next64_xrs : run 0x012 Words4.zero .xrs128pp ⟨1, 2, 0, 0⟩ =
    some (0x60001, 1, ⟨0x0002000000600003, 0x30000000, 0, 0⟩, 0x2302) := by decide
/-- P3, line 6: the first candidate is rejected. -/
theorem test_bnd32_rejects :
    seen (engineStep (running 0x020 (arg1 0x40000001) (some .xrs128pp) xrs12))
      (fun t => (t.busy, t.latch.first, t.latch.n, t.res.w0)) = some (true, false, 1, 0) := by decide
/-- V20: the high half of the operand is ignored, so this is limit 5. -/
theorem test_bnd32_limit : (run 0x020 (arg1 0xFFFFFFFF00000005) .pcgXshRr32 doc).map (fun r => (r.1, r.2.1)) =
    some (0, 1) := by decide
/-- V23, limit 100. -/
theorem test_bnd64_pcg : (run 0x021 (arg1 100) .pcgXshRr32 doc).map (fun r => (r.1, r.2.1)) = some (0x30, 2) := by decide
/-- V24. -/
theorem test_bnd64_negative : run 0x021 (arg1 0xFFFFFFFFFFFFFFFF) .pcgXshRr32 doc = some (0, 0, doc, 0x2112) := by decide

/-! ## The rest of the block -/

/-- V25. -/
theorem test_mixers : rrmxmx 2 = 0xE5C2D731E8120D3C ∧ rrmxmx 42 = 0xE2627122A3A672CB ∧
    stafford13 1 = 0x5692161D100B05E5 := by decide
/-- V6. -/
theorem test_pcg_outputs : xshRr 0xF800000000000000 = 0x000F8000 ∧ xshRs 0xF800000000000000 = 0xC0001F00 ∧
    xshRr 0x0123456789ABCDEF = 0x2468A5EB ∧ bump 1 0xFFFFFFFFFFFFFFFF = 0xA7AE0BD2B36A80D4 := by decide
/-- V27: `STATUS` is write 1 to clear. -/
theorem test_status_w1c : (memWrite 0x10 0xFFFFFFFFFFFFFFFF
    { idle (some .pcgXshRr32) doc with done := true, ovr := true }).map statusWord = some 0x2100 := by decide
/-- V27: `CTRL` keeps bit 0 alone. -/
theorem test_ctrl : (memWrite 0x08 0xFFFFFFFFFFFFFFFF State.reset).bind (fun t => memRead t 0x08) = some 1 := by decide
/-- P4, line 4: an overrun. -/
theorem test_overrun : (memWrite 0x18 0x012 (running 0x020 (arg1 5) (some .l64x128mix) docLxm)).map statusWord =
    some 0x4405 := by decide
/-- P1, line 3, as bus transactions (R80, R81). -/
theorem test_script : expandScript [.exec .next32, .rd .res0, .ack] =
    [.wr 0x18 8 0x011, .wait, .rd 0x40 8, .wr 0x10 8 6] := by decide
/-- P1, line 1 (R81): one write for each operand. -/
theorem test_args : expandScript [.args [7, 9]] = [.wr 0x20 8 7, .wr 0x28 8 9] := by decide
/-- R54: the byte at offset 3 of `ID` holds bits 31:24, the letter P. -/
theorem test_byte_labels : byteAt State.reset 3 = some 0x50 := by decide
/-- R56: the bytes of a snapshot begin with the most significant byte of its first word. -/
theorem test_snapshot_bytes : (snapshotBytes .xrs128pp ⟨0x0102030405060708, 9, 0, 0⟩).take 9 =
    [1, 2, 3, 4, 5, 6, 7, 8, 0] := by decide
/-- The command is placed where the next step runs it. -/
theorem test_withFetchWord :
    seen (step (State.reset.withFetchWord 64 0x401)) (fun t => (t.type, t.busy)) = some (some .l64x128mix, false) := by
  decide
/-- The host's turn, a bus write to `CMD`, then the engine's by the fair choice. -/
theorem test_script_starts :
    seen (step (withScript [.exec .size] State.reset)) (fun t => (t.busy, t.latch.cmd, t.host)) =
      some (true, 0x006, [.wait]) := by decide

/-! ## States that meet the hypotheses of the statements -/

/-- A command accepted by a configured engine is in the state the statements call `JustAccepted`. -/
theorem running_justAccepted (v : Word) (a : Words4) (e : Option Engine) (w : Words4) :
    JustAccepted (running v a e w) := ⟨rfl, rfl, rfl⟩

theorem running_latchOk (v : Word) (a : Words4) (e : Option Engine) (w : Words4) : LatchOk (running v a e w) :=
  fun _ => ⟨rfl, fun _ => rfl, fun h => nomatch h⟩

theorem doc_ok : EngineOk (some .pcgXshRr32) doc := ⟨by decide, rfl, rfl⟩

theorem wit_ResetHoldsTheSpecifiedValues : 0 < 0x08 ∧ 0x08 % 8 = 0 ∧ 0x78 < 0x80 ∧ 0x78 % 8 = 0 := by decide

theorem wit_ResetInputAbandonsTheRunningCommand :
    ∃ s : State, s.turns = .reset :: [.host] ∧ s.busy = true :=
  ⟨{ running 0x020 (arg1 5) (some .pcgXshRr32) doc with turns := [.reset, .host] }, rfl, rfl⟩

theorem wit_WritesDoOnlyWhatTheirRegisterSays : 0x40 ∈ [0x40, 0x48, 0x50, 0x58, 0x60, 0x68, 0x70, 0x78] ∧
    0x78 ∈ [0x40, 0x48, 0x50, 0x58, 0x60, 0x68, 0x70, 0x78] := by decide

theorem wit_CommandOfferIsAcceptedOrOverruns :
    State.reset.busy = false ∧ decode 0x402 = .illegal .seed2Type ∧
      (running 0x010 Words4.zero (some .pcgXshRr32) doc).busy = true := by decide

theorem wit_UndefinedAccessesHaveNoStep :
    (∃ s : State, s.turns = [.host] ∧ s.host = [.rd 0x7F 8] ∧ 0x7F < 0x80 ∧ ¬(8 = 8 ∧ 0x7F % 8 = 0)) ∧
    (∃ s : State, s.turns = [.host] ∧ s.host = [.wr 0x78 4 0] ∧ 0x78 < 0x80 ∧ ¬(4 = 8 ∧ 0x78 % 8 = 0)) ∧
    (∃ s : State, s.turns = [.host] ∧ s.host = [.rd 0x80 8] ∧ 0x80 ≤ 0x80) ∧
    (∃ s : State, s.turns = [.host] ∧ s.host = [.wr 0x78 8 0] ∧ 0x78 < 0x80 ∧ 0x78 % 8 = 0) :=
  ⟨⟨{ State.reset with turns := [.host], host := [.rd 0x7F 8] }, rfl, rfl, by decide, by decide⟩,
   ⟨{ State.reset with turns := [.host], host := [.wr 0x78 4 0] }, rfl, rfl, by decide, by decide⟩,
   ⟨{ State.reset with turns := [.host], host := [.rd 0x80 8] }, rfl, rfl, by decide⟩,
   ⟨{ State.reset with turns := [.host], host := [.wr 0x78 8 0] }, rfl, rfl, by decide, by decide⟩⟩

theorem wit_IrqIsDoneAndEnable :
    (∃ t, memWrite 0x08 1 State.reset = some t) ∧
    (∃ t, memWrite 0x10 2 State.reset = some t ∧ (2 : Word).getLsbD 1 = true) ∧
    (∃ t, memWrite 0x18 0x010 State.reset = some t ∧ State.reset.busy = false) ∧
    ∃ t, engineStep (running 0x006 Words4.zero (some .pcgXshRr32) doc) = .next t ∧ t.busy = false :=
  ⟨⟨_, rfl⟩, ⟨_, rfl, by decide⟩, ⟨_, rfl, rfl⟩, ⟨_, rfl, rfl⟩⟩

theorem wit_OverrunIsSticky :
    (∃ s t : State, step s = .next t ∧ s.ovr = true ∧ t.ovr = false ∧ s.turns.head? = some .reset) ∧
    ∃ s t : State, step s = .next t ∧ s.ovr = true ∧ t.ovr = false ∧ s.host = [.wr 0x10 8 4] :=
  ⟨⟨{ State.reset with ovr := true, turns := [.reset] }, _, rfl, rfl, rfl, rfl⟩,
   ⟨{ State.reset with ovr := true, host := [.wr 0x10 8 4] }, _, rfl, rfl, rfl, rfl⟩⟩

theorem wit_DecodeOfEncodeIsTheCommand : (Instr.restore 15 15).wf = true ∧ (Instr.seed2 .xrs128pp).wf = true := by decide

theorem wit_LegalWordsHaveOneMeaning : decode 0xFF05 = .ok (.restore 15 15) := by decide

theorem wit_IllegalWordsAreExactlyTheSevenCases :
    (running 0x10010 Words4.zero none Words4.zero).busy = true ∧
      decode (running 0x10010 Words4.zero none Words4.zero).latch.cmd = .illegal .reservedBits := by decide

theorem wit_AssemblerReadsItsOwnSyntax : (Instr.restore 5 0).wf = true ∧ (Instr.load).wf = true := by decide

theorem wit_StepRunsTheLatchedCommand :
    (∃ s : State, s.busy = true ∧ decode s.latch.cmd = .ok .nextw ∧ Instr.nextw.wf = true ∧ s.turns = []) ∧
    (∃ s : State, s.busy = true ∧ decode s.latch.cmd = .ok .nextw ∧ s.turns = [.engine]) ∧
    ∃ s : State, s.busy = false ∧ s.turns = [.engine] :=
  ⟨⟨running 0x010 Words4.zero (some .pcgXshRr32) doc, rfl, by decide, rfl, rfl⟩,
   ⟨{ running 0x010 Words4.zero (some .pcgXshRr32) doc with turns := [.engine] }, rfl, by decide, rfl⟩,
   ⟨{ State.reset with turns := [.engine] }, rfl, rfl⟩⟩

theorem wit_OnlyBoundedCommandsTakeMoreSteps :
    (running 0x020 (arg1 0x40000001) (some .xrs128pp) xrs12).busy = true ∧
      seen (exec .bnd32 (running 0x020 (arg1 0x40000001) (some .xrs128pp) xrs12)) (fun t => t.busy) = some true ∧
      seen (exec .bnd32 (running 0x020 (arg1 1) (some .xrs128pp) xrs12)) (fun t => t.busy) = some false := by decide

theorem wit_ChecksRunInTheSpecifiedOrder_later :
    ∃ s : State, s.busy = true ∧ s.latch.first = false ∧ InLoop s :=
  ⟨{ running 0x020 (arg1 1) (some .xrs128pp) xrs12 with latch := ⟨0x020, arg1 1, false, 1⟩ }, rfl, rfl,
    by simp [running, acceptCommand, idle], .inl ⟨by decide, by decide⟩⟩

theorem wit_ChecksRunInTheSpecifiedOrder_errors :
    decode 0x402 = .illegal .seed2Type ∧
    (decode 0x020 = .ok .bnd32 ∧ ((0x80000000 : Word).extractLsb' 0 32).toInt ≤ 0) ∧
    (decode 0x021 = .ok .bnd64 ∧ (0 : Word).toInt ≤ 0) ∧
    decode 0xF05 = .ok (.restore 15 0) := by decide

theorem wit_ChecksRunInTheSpecifiedOrder_badRestore : BadRestore .pcgXshRr32 15 0 Words4.zero := .inr (.inl (by decide))

theorem wit_ChecksRunInTheSpecifiedOrder_good :
    ¬(configuring .bnd32 = false ∧ (running 0x020 (arg1 1) (some .pcgXshRr32) doc).type = none) ∧
      ¬(Instr.bnd32 = .bnd32 ∧ ((arg1 1).w0.extractLsb' 0 32).toInt ≤ 0) ∧
      ¬(Instr.bnd32 = .bnd64 ∧ (arg1 1).w0.toInt ≤ 0) := by decide

theorem wit_goodRestore : ¬BadRestore .pcgXshRr32 1 2 doc := by
  simp [BadRestore, BadContent, Engine.code, stateSize]

theorem wit_ErrorCompletionChangesNothingElse :
    ∃ t, (running 0x010 Words4.zero none Words4.zero).busy = true ∧
      engineStep (running 0x010 Words4.zero none Words4.zero) = .next t ∧ t.busy = false ∧ t.err ≠ .ok :=
  ⟨_, rfl, rfl, rfl, by decide⟩

theorem wit_UnconfiguredCommandsReportIt :
    configuring .save = false ∧ (running 0x004 Words4.zero none Words4.zero).type = none := by decide

theorem wit_NextwReturnsOneNativeWord :
    (JustAccepted (running 0x010 Words4.zero (some .pcgXshRs32) doc) ∧
      (running 0x010 Words4.zero (some .pcgXshRs32) doc).type = some .pcgXshRs32) ∧
    (JustAccepted (running 0x010 Words4.zero (some .l64x128mix) docLxm) ∧
      (running 0x010 Words4.zero (some .l64x128mix) docLxm).type = some .l64x128mix) ∧
    (running 0x010 Words4.zero none Words4.zero).type = none ∧ opField 0x110 = 0x10 ∧ (0x110 : Word) ≠ 0x010 :=
  ⟨⟨running_justAccepted _ _ _ _, rfl⟩, ⟨running_justAccepted _ _ _ _, rfl⟩, rfl, by decide, by decide⟩

theorem wit_Next32ReturnsLowOrHighHalf :
    (JustAccepted (running 0x011 Words4.zero (some .pcgXshRr32) doc) ∧
      (running 0x011 Words4.zero (some .pcgXshRr32) doc).type = some .pcgXshRr32) ∧
    (JustAccepted (running 0x011 Words4.zero (some .xrs128pp) xrs12) ∧
      (running 0x011 Words4.zero (some .xrs128pp) xrs12).type = some .xrs128pp) ∧
    (running 0x011 Words4.zero none Words4.zero).type = none ∧ opField 0x1011 = 0x11 ∧ (0x1011 : Word) ≠ 0x011 :=
  ⟨⟨running_justAccepted _ _ _ _, rfl⟩, ⟨running_justAccepted _ _ _ _, rfl⟩, rfl, by decide, by decide⟩

theorem wit_Next64PutsTheFirstDrawHigh :
    (JustAccepted (running 0x012 Words4.zero (some .pcgXshRr32) doc) ∧
      (running 0x012 Words4.zero (some .pcgXshRr32) doc).type = some .pcgXshRr32 ∧
      (running 0x012 Words4.zero (some .pcgXshRr32) doc).w = pcgSeed2 0x012DE1BABB3C4104 0xC8161B4202294965) ∧
    (JustAccepted (running 0x012 Words4.zero (some .xrs128pp) xrs12) ∧
      (running 0x012 Words4.zero (some .xrs128pp) xrs12).type = some .xrs128pp) ∧
    (running 0x012 Words4.zero none Words4.zero).type = none ∧ opField 0x10012 = 0x12 ∧ (0x10012 : Word) ≠ 0x012 :=
  ⟨⟨running_justAccepted _ _ _ _, rfl, by decide⟩, ⟨running_justAccepted _ _ _ _, rfl⟩, rfl, by decide, by decide⟩

/-- A first step with a bad limit, and one with the least limit; the candidates are those of `wit_candidates`. -/
theorem wit_Bnd32TestsOneCandidateAStep :
    (JustAccepted (running 0x020 (arg1 0x80000000) (some .pcgXshRr32) doc) ∧
      ((running 0x020 (arg1 0x80000000) (some .pcgXshRr32) doc).latch.args.w0.extractLsb' 0 32).toInt ≤ 0) ∧
    ((running 0x020 (arg1 1) (some .xrs128pp) xrs12).busy = true ∧
      (running 0x020 (arg1 1) (some .xrs128pp) xrs12).type = some .xrs128pp ∧
      0 < ((running 0x020 (arg1 1) (some .xrs128pp) xrs12).latch.args.w0.extractLsb' 0 32).toInt) ∧
    (running 0x020 (arg1 1) none Words4.zero).type = none ∧ opField 0x120 = 0x20 ∧ (0x120 : Word) ≠ 0x020 :=
  ⟨⟨running_justAccepted _ _ _ _, by decide⟩, ⟨rfl, rfl, by decide⟩, rfl, by decide, by decide⟩

theorem wit_Bnd64TestsOneCandidateAStep :
    (JustAccepted (running 0x021 (arg1 0x8000000000000000) (some .pcgXshRr32) doc) ∧
      (running 0x021 (arg1 0x8000000000000000) (some .pcgXshRr32) doc).latch.args.w0.toInt ≤ 0) ∧
    ((running 0x021 (arg1 0x7FFFFFFFFFFFFFFF) (some .l64x128mix) docLxm).busy = true ∧
      (running 0x021 (arg1 0x7FFFFFFFFFFFFFFF) (some .l64x128mix) docLxm).type = some .l64x128mix ∧
      0 < (running 0x021 (arg1 0x7FFFFFFFFFFFFFFF) (some .l64x128mix) docLxm).latch.args.w0.toInt) ∧
    (running 0x021 (arg1 1) none Words4.zero).type = none ∧ opField 0x1021 = 0x21 ∧ (0x1021 : Word) ≠ 0x021 :=
  ⟨⟨running_justAccepted _ _ _ _, by decide⟩, ⟨rfl, rfl, by decide⟩, rfl, by decide, by decide⟩

/-- Limits at both ends of their range, and the operands outside it: `ModuloSchemeAcceptsBelowTheLargestMultiple`,
`LemireSchemeIsExact`, `SomeCandidateIsAlwaysAccepted`. -/
theorem wit_limits :
    0 < (1 : Half).toInt ∧ 0 < (0x7FFFFFFF : Half).toInt ∧ ((0x80000000 : Word).extractLsb' 0 32).toInt ≤ 0 ∧
      0 < (1 : Word).toInt ∧ 0 < (0x7FFFFFFFFFFFFFFF : Word).toInt ∧ (0x8000000000000000 : Word).toInt ≤ 0 := by decide

/-- A power of two, an accepted and a rejected candidate of each scheme of `BND32`, and of `BND64`. -/
theorem wit_candidates :
    (0x40000000 : Half) &&& (0x40000000 - 1) = 0 ∧ (0x40000001 : Half) &&& (0x40000001 - 1) ≠ 0 ∧
      modAccept ((nextWord .pcgXshRr32 doc).1.extractLsb' 0 32) (0x40000001 : Half) = none ∧
      modAccept ((nextWord .pcgXshRr32 doc).1.extractLsb' 0 32) (0x7FFFFFFF : Half) = some 0x74306E92 ∧
      lemireAccept (nextWord .xrs128pp xrs12).1 0x40000001 = none ∧
      lemireAccept (nextWord .xrs128pp xrs12).1 1 = some 0 ∧
      2 ^ 32 % (0x40000000 : Half).toNat = 0 ∧
      (0x4000000000000001 : Word) &&& (0x4000000000000001 - 1) ≠ 0 ∧
      modAccept (0xE860DD2415D339C0 : Word) 0x4000000000000001 = none ∧
      modAccept (0x60001 : Word) 3 = some 0 := by decide

theorem wit_PowerOfTwoLimitsKeepTheLowBits : 30 < 31 ∧ 62 < 63 ∧ 0 < (0x40000000 : Half).toInt ∧
    0 < (0x4000000000000000 : Word).toInt ∧ (0x4000000000000000 : Word) &&& (0x4000000000000000 - 1) = 0 := by decide

theorem wit_BoundedResultsAreBelowTheLimit :
    (∃ t, exec .bnd32 (running 0x020 (arg1 3) (some .pcgXshRr32) doc) = .next t ∧ t.busy = false ∧ t.err = .ok ∧
      0 < (limit32 (running 0x020 (arg1 3) (some .pcgXshRr32) doc)).toInt) ∧
    ∃ t, exec .bnd64 (running 0x021 (arg1 3) (some .pcgXshRr32) doc) = .next t ∧ t.busy = false ∧ t.err = .ok ∧
      0 < (limit64 (running 0x021 (arg1 3) (some .pcgXshRr32) doc)).toInt :=
  ⟨⟨_, rfl, by decide, by decide, by decide⟩, ⟨_, rfl, by decide, by decide, by decide⟩⟩

theorem wit_Bnd64OnPcgDrawsInPairs :
    width .pcgXshRr32 = 32 ∧
      (running 0x021 (arg1 3) (some .pcgXshRr32) doc).latch.n.getLsbD 0 = false ∧
      seen (exec .bnd64 (running 0x021 (arg1 3) (some .pcgXshRr32) doc)) (fun t => (t.busy, t.cnt)) = some (false, 2) ∧
      seen (exec .bnd64 (running 0x021 (arg1 0x4000000000000001) (some .pcgXshRr32) doc))
        (fun t => (t.busy, t.latch.n)) = some (true, 2) := by decide

theorem wit_Seed1ConfiguresFromOneSeed :
    JustAccepted (running 0x301 (arg1 12) none Words4.zero) ∧
      (running 0x301 (arg1 12) none Words4.zero).latch.args.w0 = 12 ∧
      opField 0x501 = 0x01 ∧ (0x501 : Word) ∉ [0x101, 0x201, 0x301, 0x401] :=
  ⟨running_justAccepted _ _ _ _, rfl, by decide, by decide⟩

theorem wit_LoadConfiguresFromFourWords :
    JustAccepted (running 0x403 docLxm none Words4.zero) ∧
      (running 0x403 docLxm none Words4.zero).latch.args = docLxm ∧ ¬(docLxm.w2 = 0 ∧ docLxm.w3 = 0) ∧
      JustAccepted (running 0x403 (arg1 2) none Words4.zero) ∧ ((arg1 2).w2 = 0 ∧ (arg1 2).w3 = 0) ∧
      opField 0x103 = 0x03 ∧ (0x103 : Word) ≠ 0x403 :=
  ⟨running_justAccepted _ _ _ _, rfl, by decide, running_justAccepted _ _ _ _, ⟨rfl, rfl⟩, by decide, by decide⟩

theorem wit_SizeReportsTheSnapshotWords :
    JustAccepted (running 0x006 Words4.zero (some .l64x128mix) docLxm) ∧
      (running 0x006 Words4.zero (some .l64x128mix) docLxm).type = some .l64x128mix ∧
      (running 0x006 Words4.zero none Words4.zero).type = none ∧ opField 0x106 = 0x06 ∧ (0x106 : Word) ≠ 0x006 :=
  ⟨running_justAccepted _ _ _ _, rfl, rfl, by decide, by decide⟩

theorem wit_SaveCopiesTheSnapshotToTheResults :
    JustAccepted (running 0x004 Words4.zero (some .xrs128pp) xrs12) ∧
      (running 0x004 Words4.zero (some .xrs128pp) xrs12).type = some .xrs128pp ∧
      (running 0x004 Words4.zero none Words4.zero).type = none ∧ opField 0x104 = 0x04 ∧ (0x104 : Word) ≠ 0x004 :=
  ⟨running_justAccepted _ _ _ _, rfl, rfl, by decide, by decide⟩

/-- Contents at the edge of R212, and a good and a bad `RESTORE` beside them. -/
theorem wit_RestoreInstallsOrRefusesTheSnapshot :
    (JustAccepted (running 0x2105 doc (some .pcgXshRr32) doc) ∧
      (running 0x2105 doc (some .pcgXshRr32) doc).latch.args = doc ∧ ¬BadRestore .pcgXshRr32 1 2 doc) ∧
    BadRestore .xrs128pp 3 2 ⟨0, 0, 1, 1⟩ ∧ ¬BadRestore .xrs128pp 3 2 ⟨0, 1, 0, 0⟩ ∧
      BadRestore .l64x128mix 4 4 ⟨2, 0, 0, 1⟩ ∧ ¬BadRestore .l64x128mix 4 4 ⟨3, 0, 0, 1⟩ ∧ opField 0x10005 = 0x05 := by
  refine ⟨⟨running_justAccepted _ _ _ _, rfl, ?_⟩, ?_, ?_, ?_, ?_, by decide⟩ <;>
    simp [BadRestore, BadContent, Engine.code, stateSize]

theorem wit_PcgRestoreUndoesSave : EngineOk (some .pcgXshRr32) doc := doc_ok

theorem wit_Seed2ConfiguresFromTwoSeeds :
    JustAccepted (running 0x302 ⟨1, 2, 0, 0⟩ none Words4.zero) ∧
      (running 0x302 ⟨1, 2, 0, 0⟩ none Words4.zero).latch.args.w1 = 2 ∧
      opField 0x402 = 0x02 ∧ (0x402 : Word) ∉ [0x102, 0x202, 0x302] ∧ Engine.xrs128pp ≠ .l64x128mix ∧
      ¬(((1 : Word) = 0 ∧ (2 : Word) = 0) ∨ ((1 : Word) = 0x61C8864680B583EB ∧ (2 : Word) = 0xC3910C8D016B07D6)) :=
  ⟨running_justAccepted _ _ _ _, rfl, by decide, by decide, by decide, by decide⟩

theorem wit_OnlyConfiguringCommandsWriteType :
    (configuring (.seed2 .xrs128pp) = true ∧ (Instr.seed2 .xrs128pp).wf = true ∧
      (running 0x302 (arg1 1) none Words4.zero).latch = (running 0x302 (arg1 1) (some .pcgXshRr32) doc).latch) ∧
    ∃ t, configuring (.restore 1 2) = false ∧
      exec (.restore 1 2) (running 0x2105 doc (some .pcgXshRr32) doc) = .next t :=
  ⟨⟨rfl, rfl, rfl⟩, _, rfl, rfl⟩

theorem wit_SaveThenRestoreResumesTheEngine :
    (running 0x004 Words4.zero (some .pcgXshRr32) doc).Inv ∧
      ∃ t, exec .save (running 0x004 Words4.zero (some .pcgXshRr32) doc) = .next t ∧
        (running 0x2105 t.res (some .pcgXshRr32) ⟨1, 1, 0, 0⟩).latch.args = t.res ∧
        JustAccepted (running 0x2105 t.res (some .pcgXshRr32) ⟨1, 1, 0, 0⟩) :=
  ⟨⟨doc_ok, running_latchOk _ _ _ _⟩, _, rfl, rfl, running_justAccepted _ _ _ _⟩

theorem wit_SnapshotBytesAreBigEndianWords : (1 : Fin 4).val < (stateSize .pcgXshRr32).toNat ∧
    (3 : Fin 4).val < (stateSize .l64x128mix).toNat ∧ 7 < 8 ∧ doc.w2 = 0 ∧ doc.w3 = 0 := by decide

/-- `XshRrOutputBits`, `XshRsOutputBits`, `XrsUpdateIsTheStatedBijection`, `XbgUpdateIsTheStatedBijection`, and the engines
of `PcgDrawReadsTheOldState`. -/
theorem wit_bits : 31 < 32 ∧ 63 < 64 ∧ (Engine.pcgXshRs32 = .pcgXshRr32 ∨ Engine.pcgXshRs32 = .pcgXshRs32) := by decide

theorem wit_EveryStepKeepsTheInvariant :
    (running 0x020 (arg1 3) (some .pcgXshRr32) doc).Inv ∧
      ∃ t, step (running 0x020 (arg1 3) (some .pcgXshRr32) doc) = .next t :=
  ⟨⟨doc_ok, running_latchOk _ _ _ _⟩, _, rfl⟩

theorem wit_OnlyUndefinedAccessesStopTheMachine :
    ∃ s : State, s.host = [.rd 0x78 8] ∧ ∀ op ∈ s.host.head?, op.wf = true :=
  ⟨{ State.reset with host := [.rd 0x78 8] }, rfl, by decide⟩

theorem wit_ResultsChangeOnlyOnSuccess :
    ∃ t, step (running 0x010 Words4.zero (some .pcgXshRr32) doc) = .next t ∧
      t.res ≠ (running 0x010 Words4.zero (some .pcgXshRr32) doc).res :=
  ⟨_, rfl, by decide⟩

theorem wit_CommandsLeaveOtherRegistersAlone :
    (∃ t, exec .save (running 0x004 Words4.zero (some .pcgXshRr32) doc) = .next t) ∧ 0x48 ≠ 0x10 ∧ 0x48 ≠ 0x60 :=
  ⟨⟨_, rfl⟩, by decide, by decide⟩

theorem wit_HostCannotChangeARunningCommand :
    State.reset.busy = false ∧
      ∃ t, hostOp (.wr 0x18 8 0x010) [] (running 0x020 (arg1 3) (some .pcgXshRr32) doc) = .next t ∧
        (running 0x020 (arg1 3) (some .pcgXshRr32) doc).busy = true :=
  ⟨rfl, _, rfl, rfl⟩

/-- Two blocks that differ in an operand register, an enable and a script, and run the same command. -/
theorem wit_ResultsDependOnlyOnEngineAndLatch :
    ∃ s u t v : State, s ≠ u ∧ s.busy = true ∧ u.busy = true ∧ s.type = u.type ∧ s.w = u.w ∧ s.latch = u.latch ∧
      s.pcgDefaultInc = u.pcgDefaultInc ∧ exec .nextw s = .next t ∧ exec .nextw u = .next v :=
  ⟨running 0x010 Words4.zero (some .pcgXshRr32) doc,
   { running 0x010 Words4.zero (some .pcgXshRr32) doc with arg := arg1 7, ie := true, host := [.wait] }, _, _,
   fun h => Bool.noConfusion (congrArg State.ie h), rfl, rfl, rfl, rfl, rfl, rfl, rfl, rfl⟩

theorem wit_OperandWritesDoNotReachARunningCommand :
    ∃ t, exec .bnd32 (running 0x020 (arg1 3) (some .pcgXshRr32) doc) = .next t := ⟨_, rfl⟩

theorem wit_IdleLatchIsNeverRead :
    ∃ t, State.reset.busy = false ∧
      step { State.reset with host := [.wr 0x18 8 0x010] } = .next t ∧ t.busy = true := ⟨_, rfl, rfl, rfl⟩

theorem wit_IdleBlockHoldsAllState : Quiescent State.reset ∧ State.reset.turns = [] := ⟨⟨rfl, rfl⟩, rfl⟩

theorem wit_WaitEndsExactlyWhenIdle :
    (∃ s : State, s.host = [.wait] ∧ s.busy = true) ∧ ∃ s : State, s.host = [.wait] ∧ s.busy = false :=
  ⟨⟨{ running 0x010 Words4.zero none Words4.zero with host := [.wait] }, rfl, rfl⟩,
   ⟨{ State.reset with host := [.wait] }, rfl, rfl⟩⟩

end Sys2Proof.Tests
end

/-! # The state family (`10_state.md`): reset (R38) and the offer of a command (R36) -/

namespace Sys2Proof.Machine

/-! ### The register space at a register's offset -/

/-- A read at a register's offset returns that register (R52). -/
theorem memRead_regOffset (s : State) (r : Reg) : memRead s (regOffset r) = some (readReg s r) := by
  rw [memRead, (regAt_eq_some _ r).mpr rfl, Option.map_some]

/-- A write at a register's offset is that register's write (R53). -/
theorem memWrite_regOffset (r : Reg) (v : Word) (s : State) :
    memWrite (regOffset r) v s = some (writeReg r v s) := by
  rw [memWrite, (regAt_eq_some _ r).mpr rfl, Option.map_some]

/-- Every multiple of 8 within the space is the offset of a register (R21, R50). -/
theorem exists_regOffset_eq {off : Nat} (h8 : off % 8 = 0) (hlt : off < Config.regSpace) :
    ∃ r, regOffset r = off := by
  obtain ⟨r, hr⟩ := Option.isSome_iff_exists.mp ((regAt_isSome off).mpr ⟨h8, hlt⟩)
  exact ⟨r, (regAt_eq_some off r).mp hr⟩

/-! ### Reads after reset -/

theorem statusWord_reset : statusWord State.reset = 0 := by decide

theorem ctrlWord_reset : ctrlWord State.reset = 0 := by decide

/-- After reset `ID` alone reads other than 0 (R38). -/
theorem readReg_reset {r : Reg} (hr : r ≠ .id) : readReg State.reset r = 0 := by
  cases r with
  | id => exact absurd rfl hr
  | ctrl => exact ctrlWord_reset
  | status => exact statusWord_reset
  | _ => rfl

/-- Settles O1: the fields are the spec's by definition, and every aligned offset but 0 is that of a register other
than `ID`. -/
theorem resetHoldsTheSpecifiedValues : Obligations.ResetHoldsTheSpecifiedValues := by
  unfold Obligations.ResetHoldsTheSpecifiedValues
  have hid : memRead State.reset 0 = some 0x000F000150524E47 := memRead_regOffset State.reset .id
  refine ⟨rfl, rfl, rfl, rfl, rfl, rfl, rfl, rfl, rfl, rfl, rfl, rfl, hid, ?_⟩
  intro off hpos hlt h8
  obtain ⟨r, rfl⟩ := exists_regOffset_eq h8 hlt
  have hr : r ≠ .id := by
    rintro rfl
    exact absurd hpos (by decide)
  rw [memRead_regOffset, readReg_reset hr]

/-! ### The offer of a command -/

/-- A write at the offset of `CMD` is an offer of the word (R36). -/
theorem memWrite_cmd (v : Word) (s : State) : memWrite 0x18 v s = some (writeCmd v s) :=
  memWrite_regOffset .cmd v s

/-- Acceptance touches the latch, `DONE` and `BUSY` only (R36). -/
theorem sameOutside_acceptCommand (v : Word) (s : State) : SameOutside s (acceptCommand v s) :=
  ⟨rfl, rfl, rfl, rfl, rfl, rfl, rfl⟩

/-- The engine's first step on a word the decoder rejects is the ILLEGAL_COMMAND completion (R77, R243). -/
theorem engineStep_illegal {s : State} {r : IllegalReason} (h : decode s.latch.cmd = .illegal r) :
    engineStep s = .next (raiseError .illegalCommand s) := by
  rw [engineStep, h]

/-- Settles O5, by `BUSY`: the idle block accepts whatever the word, and the busy one records the overrun. -/
theorem commandOfferIsAcceptedOrOverruns : Obligations.CommandOfferIsAcceptedOrOverruns := by
  unfold Obligations.CommandOfferIsAcceptedOrOverruns
  intro s v
  rw [memWrite_cmd]
  constructor
  · intro hidle
    rw [writeCmd_idle v s hidle]
    have hillegal : ∀ r, decode v = .illegal r →
        ∃ u, engineStep (acceptCommand v s) = .next u ∧ Failed (acceptCommand v s) u .illegalCommand :=
      fun _ hr => ⟨_, engineStep_illegal hr, failed_raiseError _ _⟩
    exact ⟨acceptCommand v s, rfl, rfl, rfl, rfl, rfl, rfl, rfl, rfl, rfl, rfl, rfl, rfl,
      sameOutside_acceptCommand v s, hillegal⟩
  · intro hbusy
    rw [writeCmd_busy v s hbusy]

end Sys2Proof.Machine

/-! # The memory family (`20_memory.md`): reads (R52), writes (R53), snapshot bytes (R56), a running command (R64) -/

namespace Sys2Proof.Machine

/-! ### The byte form of a word -/

@[simp] theorem wordBytes_length (v : Word) : (wordBytes v).length = 8 := rfl

/-- Byte `k` of a word, counted from the most significant (R56). -/
theorem wordBytes_getElem? (v : Word) {k : Nat} (hk : k < 8) :
    (wordBytes v)[k]? = some (v.extractLsb' (56 - 8 * k) 8) := by
  interval_cases k <;> rfl

/-- The bytes of a word are adjacent fields, so appending them gives the word back (R56). -/
@[simp] theorem wordOfBytes_wordBytes (v : Word) : wordOfBytes (wordBytes v) = some v := by
  have happend (lo m : Nat) : v.extractLsb' (lo + 8) m ++ v.extractLsb' lo 8 = v.extractLsb' lo (m + 8) :=
    BitVec.extractLsb'_append_extractLsb'_eq_extractLsb' rfl
  rw [wordBytes, wordOfBytes, happend 48, happend 40, happend 32, happend 24, happend 16, happend 8, happend 0,
    BitVec.extractLsb'_eq_self]

/-! ### The byte form of a list of words -/

theorem flatMap_wordBytes_length (l : List Word) : (l.flatMap wordBytes).length = 8 * l.length := by
  simp [List.length_flatMap, Nat.mul_comm]

/-- Byte `8j + k` of a list of words is byte `k` of word `j`. -/
theorem flatMap_wordBytes_getElem? (l : List Word) (j : Nat) {k : Nat} (hk : k < 8) :
    (l.flatMap wordBytes)[8 * j + k]? = l[j]?.bind (fun v => (wordBytes v)[k]?) := by
  induction l generalizing j with
  | nil => simp
  | cons x xs ih =>
    rw [List.flatMap_cons]
    cases j with
    | zero =>
      rw [Nat.mul_zero, Nat.zero_add, List.getElem?_append_left (hk.trans_eq (wordBytes_length x).symm)]
      rfl
    | succ j =>
      have hoff : 8 * (j + 1) + k = (wordBytes x).length + (8 * j + k) := by
        rw [wordBytes_length]
        omega
      rw [hoff, List.getElem?_append_right (Nat.le_add_right _ _), Nat.add_sub_cancel_left, ih,
        List.getElem?_cons_succ]

/-- Block `j` of the bytes parses to word `j`, and to nothing where there is no word `j`. -/
theorem wordOfBytes_block (l : List Word) (j : Nat) :
    wordOfBytes (((l.flatMap wordBytes).drop (8 * j)).take 8) = l[j]? := by
  induction l generalizing j with
  | nil => simp [wordOfBytes]
  | cons x xs ih =>
    rw [List.flatMap_cons]
    cases j with
    | zero => exact wordOfBytes_wordBytes x
    | succ j =>
      have hoff : 8 * (j + 1) = (wordBytes x).length + 8 * j := by
        rw [wordBytes_length]
        omega
      rw [hoff, List.drop_length_add_append, ih, List.getElem?_cons_succ]

/-! ### The byte form of a snapshot -/

/-- L64X128MIX alone has four snapshot words (R205). -/
theorem stateSize_eq_four (e : Engine) : stateSize e = 4 ↔ e = .l64x128mix := by
  cases e <;> decide

/-- Every engine has at least two snapshot words (R205). -/
theorem two_le_stateSize (e : Engine) : 2 ≤ (stateSize e).toNat := by
  cases e <;> decide

theorem snapshotList_length (e : Engine) (v : Words4) : (snapshotList e v).length = (stateSize e).toNat := by
  cases e <;> rfl

theorem snapshotList_getElem? (e : Engine) (v : Words4) {j : Fin 4} (hj : j.val < (stateSize e).toNat) :
    (snapshotList e v)[j.val]? = some (v.get j) := by
  rw [snapshotList, List.getElem?_take_of_lt hj]
  fin_cases j <;> rfl

theorem snapshotBytes_length (e : Engine) (v : Words4) :
    (snapshotBytes e v).length = 8 * (stateSize e).toNat := by
  rw [snapshotBytes, flatMap_wordBytes_length, snapshotList_length]

theorem snapshotBytes_getElem? (e : Engine) (v : Words4) {j : Fin 4} {k : Nat}
    (hj : j.val < (stateSize e).toNat) (hk : k < 8) :
    (snapshotBytes e v)[8 * j.val + k]? = some ((v.get j).extractLsb' (56 - 8 * k) 8) := by
  rw [snapshotBytes, flatMap_wordBytes_getElem? _ _ hk, snapshotList_getElem? e v hj, Option.bind_some,
    wordBytes_getElem? _ hk]

/-- Block `j` of a snapshot's bytes parses to word `j`. -/
theorem wordOfBytes_snapshotBytes (e : Engine) (v : Words4) (j : Fin 4) (hj : j.val < (stateSize e).toNat) :
    wordOfBytes (((snapshotBytes e v).drop (8 * j.val)).take 8) = some (v.get j) := by
  rw [snapshotBytes, wordOfBytes_block, snapshotList_getElem? e v hj]

/-- What a host parses is the snapshot, with 0 for the words a two-word engine lacks. -/
theorem snapshotOfBytes_snapshotBytes (e : Engine) (v : Words4) :
    snapshotOfBytes e (snapshotBytes e v) =
      some (if e = .l64x128mix then v else ⟨v.w0, v.w1, 0, 0⟩) := by
  have hblock := wordOfBytes_snapshotBytes e v
  have h0 : wordOfBytes ((snapshotBytes e v).take 8) = some v.w0 :=
    hblock 0 ((by decide : 0 < 2).trans_le (two_le_stateSize e))
  have h1 : wordOfBytes (((snapshotBytes e v).drop 8).take 8) = some v.w1 :=
    hblock 1 ((by decide : 1 < 2).trans_le (two_le_stateSize e))
  rw [snapshotOfBytes, if_pos (snapshotBytes_length e v)]
  by_cases he : e = .l64x128mix
  · have hsize : stateSize e = 4 := (stateSize_eq_four e).mpr he
    have h2 : wordOfBytes (((snapshotBytes e v).drop 16).take 8) = some v.w2 := hblock 2 (by rw [hsize]; decide)
    have h3 : wordOfBytes (((snapshotBytes e v).drop 24).take 8) = some v.w3 := hblock 3 (by rw [hsize]; decide)
    simp only [h0, h1, h2, h3, if_pos hsize, if_pos he]
  · have hsize : stateSize e ≠ 4 := mt (stateSize_eq_four e).mp he
    simp only [h0, h1, if_neg hsize, if_neg he]

/-- Settles O38: each word's bytes are adjacent fields of it, and the list of words is cut into blocks of 8. -/
theorem snapshotBytesAreBigEndianWords : Obligations.SnapshotBytesAreBigEndianWords := by
  unfold Obligations.SnapshotBytesAreBigEndianWords
  intro e v
  refine ⟨snapshotBytes_length e v, fun j k hj hk => snapshotBytes_getElem? e v hj hk, ?_⟩
  rw [snapshotOfBytes_snapshotBytes]
  rintro (he | ⟨h2, h3⟩)
  · rw [if_pos he]
  · have hv : v = ⟨v.w0, v.w1, 0, 0⟩ := congrArg₂ (Words4.mk v.w0 v.w1) h2 h3
    rw [← hv, ite_self]

/-! ### The host beside a running command -/

/-- Settles O55, by the host operation: a read touches no field of the block, a write none of a running command, and
a `wait` that reads `BUSY` = 1 stays where it is. -/
theorem hostCannotChangeARunningCommand : Obligations.HostCannotChangeARunningCommand := by
  unfold Obligations.HostCannotChangeARunningCommand
  refine ⟨?_, ?_, ?_⟩
  · intro s v hidle
    exact ⟨acceptCommand v s, by rw [memWrite_cmd, writeCmd_idle v s hidle], rfl⟩
  · intro s t op rest hbusy hop
    obtain ⟨r, rfl⟩ | ⟨r, v, -, rfl⟩ | ⟨-, rfl⟩ := hostOp_cases hop
    · exact ⟨hbusy, rfl, rfl, rfl, rfl, rfl, rfl⟩
    · obtain ⟨hb, hlatch⟩ := writeReg_latch r v { s with host := rest } hbusy
      obtain ⟨hres, hcnt, herr, htype, hw, -⟩ := writeReg_engine r v { s with host := rest }
      exact ⟨hb, hlatch, htype, hw, hres, hcnt, herr⟩
    · rw [hostWait_busy rest s hbusy]
      exact ⟨hbusy, rfl, rfl, rfl, rfl, rfl, rfl⟩
  · intro s v hbusy
    exact ⟨{ s with ovr := true }, by rw [memWrite_cmd, writeCmd_busy v s hbusy], rfl⟩

/-! ### What a read returns -/

/-- The low field of an append keeps its place, and the high field moves up by the low one's width. -/
theorem toNat_append_eq_add {m n : Nat} (x : BitVec m) (y : BitVec n) :
    (x ++ y).toNat = 2 ^ n * x.toNat + y.toNat := by
  rw [BitVec.toNat_append, ← Nat.shiftLeft_add_eq_or_of_lt y.isLt, Nat.shiftLeft_eq, Nat.mul_comm]

/-- `STATUS` in arithmetic: each field times the weight of its lowest bit (R26). -/
theorem statusWord_toNat (s : State) :
    (statusWord s).toNat = s.busy.toNat + 2 * s.done.toNat + 4 * s.ovr.toNat + 16 * s.err.code.toNat
      + 256 * (typeCode s.type).toNat + 4096 * (sizeCode s.type).toNat := by
  simp only [statusWord, flagBit, toNat_append_eq_add, BitVec.toNat_ofBool, BitVec.ofNat_eq_ofNat, BitVec.toNat_ofNat,
    Nat.zero_mod]
  omega

theorem ctrlWord_eq (s : State) : ctrlWord s = if s.ie then 1 else 0 := by
  cases h : s.ie <;> simp [ctrlWord, flagBit, h]

/-- The registers hold nothing of the host's script. -/
theorem readReg_host (s : State) (ops : List HostOp) (r : Reg) : readReg { s with host := ops } r = readReg s r := by
  cases r <;> rfl

/-- A host read of a register only moves on in the script and records the value (R52, R80). -/
theorem hostOp_rd (r : Reg) (rest : List HostOp) (s : State) :
    hostOp (.rd (regOffset r) 8) rest s = .next { s with host := rest, reads := s.reads ++ [readReg s r] } := by
  simp only [hostOp, (target_eq_reg _ _ r).mpr ⟨rfl, rfl⟩, hostRead, readReg_host]

/-- Settles O3: every offset of the table is a register's, and a read of it returns that register. -/
theorem readsReturnTheRegisterMap : Obligations.ReadsReturnTheRegisterMap := by
  unfold Obligations.ReadsReturnTheRegisterMap
  intro s
  have hread := memRead_regOffset s
  refine ⟨hread .id, ?_, ⟨statusWord s, hread .status, statusWord_toNat s⟩, hread .cmd, hread .arg0, hread .arg1,
    hread .arg2, hread .arg3, hread .res0, hread .res1, hread .res2, hread .res3, hread .cnt, hread .rsv68,
    hread .rsv70, hread .rsv78, fun r rest => ⟨readReg s r, hread r, hostOp_rd r rest s⟩⟩
  rw [← ctrlWord_eq]
  exact hread .ctrl

/-! ### What a write does -/

/-- Write 1 to clear (R26): a flag falls where the written bit is 1 and stays elsewhere. -/
theorem writeStatus_eq (v : Word) (s : State) :
    writeStatus v s = { s with
      done := if v.getLsbD 1 then false else s.done, ovr := if v.getLsbD 2 then false else s.ovr } := by
  have hclear : ∀ flag bit : Bool, (flag && !bit) = if bit then false else flag := by decide
  simp only [writeStatus, hclear]

/-- Settles O4: every offset of the table is a register's, and a write there is that register's write. -/
theorem writesDoOnlyWhatTheirRegisterSays : Obligations.WritesDoOnlyWhatTheirRegisterSays := by
  unfold Obligations.WritesDoOnlyWhatTheirRegisterSays
  intro s v
  have hwrite := fun r => memWrite_regOffset r v s
  refine ⟨hwrite .id, hwrite .ctrl, ?_, memWrite_cmd v s, hwrite .arg0, hwrite .arg1, hwrite .arg2, hwrite .arg3, ?_⟩
  · rw [← writeStatus_eq]
    exact hwrite .status
  · simp only [List.forall_mem_cons]
    exact ⟨hwrite .res0, hwrite .res1, hwrite .res2, hwrite .res3, hwrite .cnt, hwrite .rsv68, hwrite .rsv70,
      hwrite .rsv78, List.forall_mem_nil _⟩

end Sys2Proof.Machine

/-! # The encoding family (`30_encoding.md`): the words that are `Illegal` (R77) -/

namespace Sys2Proof

/-! ### Which fields each rule of the decoder rejects (R77, R78) -/

theorem field_eq_zero_iff {n : Nat} (x : BitVec n) : x = 0#n ↔ x.toNat = 0 := by
  rw [← BitVec.toNat_inj, BitVec.toNat_ofNat, Nat.zero_mod]

/-- A rule's last check: the word is `Illegal` exactly when the check fails. -/
theorem illegal_of_check_iff (p : Prop) [Decidable p] (i : Instr) (reason : IllegalReason) :
    (∃ r, (if p then Decoded.ok i else .illegal reason) = .illegal r) ↔ ¬p := by
  split <;> simp [*]

/-- `TY` names no engine exactly when its code is not one of 1 to 4 (R3). -/
theorem engineOfCode_eq_none (ty : BitVec 4) : Engine.ofCode ty = none ↔ ty.toNat ∉ [1, 2, 3, 4] := by
  revert ty
  decide

/-- `TY` names an engine other than L64X128MIX exactly when its code is one of 1 to 3 (R3). -/
theorem engineOfCode_of_seed2Type (ty : BitVec 4) :
    ty.toNat ∉ [1, 2, 3] ↔ Engine.ofCode ty = none ∨ Engine.ofCode ty = some .l64x128mix := by
  revert ty
  decide

theorem decodePlain_illegal_iff (ty len : BitVec 4) (i : Instr) :
    (∃ r, decodePlain ty len i = .illegal r) ↔ ¬(ty.toNat = 0 ∧ len.toNat = 0) := by
  rw [decodePlain, illegal_of_check_iff]
  exact not_congr (and_congr (field_eq_zero_iff ty) (field_eq_zero_iff len))

theorem decodeSeed1_illegal_iff (ty len : BitVec 4) :
    (∃ r, decodeSeed1 ty len = .illegal r) ↔ ty.toNat ∉ [1, 2, 3, 4] ∨ len.toNat ≠ 0 := by
  rw [← engineOfCode_eq_none, decodeSeed1]
  cases Engine.ofCode ty with
  | none => simp
  | some e => simp [illegal_of_check_iff, field_eq_zero_iff]

theorem decodeSeed2_illegal_iff (ty len : BitVec 4) :
    (∃ r, decodeSeed2 ty len = .illegal r) ↔ ty.toNat ∉ [1, 2, 3] ∨ len.toNat ≠ 0 := by
  rw [engineOfCode_of_seed2Type, decodeSeed2]
  cases Engine.ofCode ty with
  | none => simp
  | some e =>
    cases e with
    | l64x128mix => simp
    | _ => simp [illegal_of_check_iff, field_eq_zero_iff]

theorem decodeLoad_illegal_iff (ty len : BitVec 4) :
    (∃ r, decodeLoad ty len = .illegal r) ↔ ty.toNat ≠ 4 ∨ len.toNat ≠ 0 := by
  have htype : ty = 4 ↔ ty.toNat = 4 := BitVec.toNat_inj.symm
  rw [decodeLoad]
  by_cases h : ty = 4
  · rw [if_pos h, illegal_of_check_iff]
    simp [htype.mp h, field_eq_zero_iff]
  · rw [if_neg h]
    simp [mt htype.mpr h]

/-! ### The decoder on the fields, by opcode (R72, R77) -/

/-- The commands with no operand field share one rule (R78). -/
theorem decodeFields_plain {op : BitVec 8} (h : op ∈ [0x04, 0x06, 0x10, 0x11, 0x12, 0x20, 0x21]) (ty len : BitVec 4) :
    ∃ i, decodeFields op ty len = decodePlain ty len i := by
  simp only [List.mem_cons, List.not_mem_nil, or_false] at h
  obtain rfl | rfl | rfl | rfl | rfl | rfl | rfl := h <;> exact ⟨_, rfl⟩

/-- An opcode R72 does not list is reserved. -/
theorem decodeFields_reserved {op : BitVec 8} (hfields : op ∉ [0x01, 0x02, 0x03, 0x05])
    (hplain : op ∉ [0x04, 0x06, 0x10, 0x11, 0x12, 0x20, 0x21]) (ty len : BitVec 4) :
    decodeFields op ty len = .illegal .reservedOpcode := by
  simp only [List.mem_cons, List.not_mem_nil, or_false, not_or] at hfields hplain
  simp only [decodeFields, hfields, hplain, if_false]

/-- An opcode is in a list exactly when its number is in the list of numbers. -/
theorem opcode_mem_iff (op : BitVec 8) (l : List (BitVec 8)) : op ∈ l ↔ op.toNat ∈ l.map BitVec.toNat :=
  (List.mem_map_of_injective fun _ _ => BitVec.eq_of_toNat_eq).symm

/-- Conditions 2 to 7 of R77, on the numbers of the fields. -/
theorem decodeFields_illegal_iff (op : BitVec 8) (ty len : BitVec 4) :
    (∃ r, decodeFields op ty len = .illegal r) ↔
      op.toNat ∉ [0x01, 0x02, 0x03, 0x04, 0x05, 0x06, 0x10, 0x11, 0x12, 0x20, 0x21] ∨
        (op.toNat = 0x01 ∧ ty.toNat ∉ [1, 2, 3, 4]) ∨
        (op.toNat = 0x02 ∧ ty.toNat ∉ [1, 2, 3]) ∨
        (op.toNat = 0x03 ∧ ty.toNat ≠ 4) ∨
        (op.toNat ∈ [0x01, 0x02, 0x03] ∧ len.toNat ≠ 0) ∨
        (op.toNat ∈ [0x04, 0x06, 0x10, 0x11, 0x12, 0x20, 0x21] ∧ ¬(ty.toNat = 0 ∧ len.toNat = 0)) := by
  have hmem := opcode_mem_iff op
  by_cases hplain : op.toNat ∈ [0x04, 0x06, 0x10, 0x11, 0x12, 0x20, 0x21]
  · obtain ⟨i, hi⟩ := decodeFields_plain ((hmem _).mpr hplain) ty len
    rw [hi, decodePlain_illegal_iff]
    simp only [List.mem_cons, List.not_mem_nil, or_false] at hplain ⊢
    omega
  by_cases h : op ∈ [0x01, 0x02, 0x03, 0x05]
  · simp only [List.mem_cons, List.not_mem_nil, or_false] at h
    obtain rfl | rfl | rfl | rfl := h
    · exact (decodeSeed1_illegal_iff ty len).trans (by simp)
    · exact (decodeSeed2_illegal_iff ty len).trans (by simp)
    · exact (decodeLoad_illegal_iff ty len).trans (by simp)
    · simp [decodeFields]
  · rw [decodeFields_reserved h (mt (hmem _).mp hplain)]
    have hother : op.toNat ∉ [0x01, 0x02, 0x03, 0x05] := mt (hmem [0x01, 0x02, 0x03, 0x05]).mpr h
    refine iff_of_true ⟨_, rfl⟩ (.inl ?_)
    simp only [List.mem_cons, List.not_mem_nil, or_false] at hplain hother ⊢
    omega

/-- The reserved bits come first (R77). -/
theorem decode_illegal_iff (v : Word) :
    (∃ r, decode v = .illegal r) ↔
      (rsvField v).toNat ≠ 0 ∨ ∃ r, decodeFields (opField v) (tyField v) (lenField v) = .illegal r := by
  rw [decode]
  by_cases h : rsvField v = 0
  · simp [h]
  · rw [if_neg h]
    simp [mt (field_eq_zero_iff _).mpr h]

/-- Settles O11: the fields of a word are arithmetic on its number, the decoder tests the reserved bits and then goes by
the opcode, and the engine's step on a rejected word is an error completion. -/
theorem illegalWordsAreExactlyTheSevenCases : Obligations.IllegalWordsAreExactlyTheSevenCases := by
  unfold Obligations.IllegalWordsAreExactlyTheSevenCases
  constructor
  · intro v
    have hfields : (v.toNat / 256 % 16 = 0 ∧ v.toNat / 4096 % 16 = 0) ↔ v.toNat / 256 % 256 = 0 := by omega
    rw [decode_illegal_iff, decodeFields_illegal_iff, rsvField_toNat, opField_toNat, tyField_toNat, lenField_toNat,
      hfields]
  · intro s r _ hr
    exact ⟨_, Machine.engineStep_illegal hr, Machine.failed_raiseError _ s⟩

end Sys2Proof

/-! # The word source family (`40_word_source.md`): NEXTW (R102), NEXT32 (R103), NEXT64 (R104) -/

namespace Sys2Proof

/-! ### A command with no operand field has one word -/

/-- A command whose opcode takes no operand field is written with `TY` = `LEN` = 0 (R72). -/
theorem plain_fields_eq_zero {i : Instr} (hi : i.opcode ∈ [0x04, 0x06, 0x10, 0x11, 0x12, 0x20, 0x21]) :
    i.ty = 0 ∧ i.len = 0 := by
  cases i with
  | seed1 | seed2 | load | restore => simp [Instr.opcode] at hi
  | save | size | nextw | next32 | next64 | bnd32 | bnd64 => exact ⟨rfl, rfl⟩

/-- Every other word with the opcode of such a command is `Illegal` (R77). -/
theorem decode_illegal_of_ne_encode {i : Instr} (hi : i.opcode ∈ [0x04, 0x06, 0x10, 0x11, 0x12, 0x20, 0x21]) {v : Word}
    (hop : opField v = i.opcode) (hv : v ≠ encode i) : ∃ r, decode v = .illegal r := by
  obtain ⟨hty, hlen⟩ := plain_fields_eq_zero hi
  obtain ⟨j, hj⟩ := decodeFields_plain hi (tyField v) (lenField v)
  rw [decode_illegal_iff, hop, hj, decodePlain_illegal_iff, ← field_eq_zero_iff, ← field_eq_zero_iff]
  by_contra! hlegal
  obtain ⟨hrsv, htyv, hlenv⟩ := hlegal
  have hfields : encode i = v :=
    encode_eq_of_fields v i ((field_eq_zero_iff _).mpr hrsv) hop.symm (hty.trans htyv.symm) (hlen.trans hlenv.symm)
  exact hv hfields.symm

end Sys2Proof

namespace Sys2Proof.Machine

/-! ### The width of the native word, and its halves -/

/-- The PCG engines are the 32-bit ones (R105). -/
theorem width_eq_32_iff (e : Engine) : width e = 32 ↔ e = .pcgXshRr32 ∨ e = .pcgXshRs32 := by
  cases e <;> decide

/-- XRS128PP and L64X128MIX are the 64-bit ones (R105). -/
theorem width_ne_32_iff (e : Engine) : width e ≠ 32 ↔ e = .xrs128pp ∨ e = .l64x128mix := by
  cases e <;> decide

theorem lowHalf_toNat (v : Word) : (lowHalf v).toNat = v.toNat % 2 ^ 32 := by
  rw [lowHalf, BitVec.extractLsb'_toNat, Nat.shiftRight_zero]

theorem highHalf_toNat (v : Word) : (highHalf v).toNat = v.toNat / 2 ^ 32 := by
  rw [highHalf, BitVec.extractLsb'_toNat, Nat.shiftRight_eq_div_pow]
  have := v.isLt
  omega

/-! ### Every word comes out of a 64-bit engine (R102) -/

/-- Some XRS128PP state with `x0` = 1 returns the word: `x1` is free and the rotation is onto. -/
theorem exists_nextWord_xrs (v : Word) : ∃ w, EngineOk (some .xrs128pp) w ∧ (nextWord .xrs128pp w).1 = v := by
  obtain ⟨z, (hz : z.rotateLeft 17 = v - 1)⟩ :=
    Finite.surjective_of_injective (rotateLeft_injective 17 (by decide)) (v - 1)
  refine ⟨⟨1, z - 1, 0, 0⟩, ⟨by simp, rfl, rfl⟩, ?_⟩
  rw [nextWord_xrs_value, xrsOut, add_sub_cancel, hz, sub_add_cancel]

/-- Some L64X128MIX state with `x0` = 1 returns the word: `s` is free and the mixer is onto. -/
theorem exists_nextWord_lxm (v : Word) : ∃ w, EngineOk (some .l64x128mix) w ∧ (nextWord .l64x128mix w).1 = v := by
  obtain ⟨z, hz⟩ := Finite.surjective_of_injective lea64_injective v
  refine ⟨⟨1, z - 1, 1, 0⟩, ⟨by simp, by simp⟩, ?_⟩
  rw [nextWord_lxm_value, sub_add_cancel, hz]

/-! ### The values drawn (R103, R104) -/

/-- The 32-bit value by engine: the low half of a PCG word, the high half of a 64-bit one (R103). -/
theorem drawn32_toNat (e : Engine) (s : State) :
    (drawn32 e s).toNat = if e = .pcgXshRr32 ∨ e = .pcgXshRs32 then (nextWord e s.w).1.toNat % 2 ^ 32
      else (nextWord e s.w).1.toNat / 2 ^ 32 := by
  simp only [← width_eq_32_iff, drawn32, apply_ite BitVec.toNat, lowHalf_toNat, highHalf_toNat, drawn]

/-- On a PCG engine the low half is all of the native word (R101, R103). -/
theorem drawn32_setWidth_pcg {e : Engine} (he : width e = 32) (s : State) :
    (drawn32 e s).setWidth 64 = drawn e s := by
  apply BitVec.eq_of_toNat_eq
  have hlt := nextWord_pcg_lt s.w e he
  rw [BitVec.toNat_setWidth, drawn32_toNat, if_pos ((width_eq_32_iff e).mp he), drawn]
  omega

theorem drawn64_pcg {e : Engine} (he : width e = 32) (s : State) :
    drawn64 e s = lowHalf (nextWord e s.w).1 ++ lowHalf (nextWord e (nextWord e s.w).2).1 := if_pos he

theorem drawn64_wide {e : Engine} (he : width e ≠ 32) (s : State) : drawn64 e s = (nextWord e s.w).1 := if_neg he

/-- In arithmetic the first PCG draw counts 2^32 times (R104). -/
theorem drawn64_pcg_toNat {e : Engine} (he : width e = 32) (s : State) :
    (drawn64 e s).toNat = (nextWord e s.w).1.toNat % 2 ^ 32 * 2 ^ 32
      + (nextWord e (nextWord e s.w).2).1.toNat % 2 ^ 32 := by
  rw [drawn64_pcg he, toNat_append_eq, lowHalf_toNat, lowHalf_toNat]

/-! ### The draw commands' completions -/

/-- Completing after one draw of a command just accepted gives `CNT` = 1 (R36, R37). -/
theorem completed_afterDraw {s : State} (h : JustAccepted s) (e : Engine) (r : List (Fin 4 × Word)) :
    Completed s (complete r (afterDraw e s)) 1 := by
  obtain ⟨-, -, hn⟩ := h
  have hcount : (afterDraw e s).latch.n = 1 := by rw [afterDraw_latch, hn]; rfl
  exact hcount ▸ completed_complete r (sameOutside_afterDraw e s)

/-- Completing after a 64-bit value on a PCG engine gives `CNT` = 2, a count for each draw (R104). -/
theorem completed_afterDraw64_pcg {s : State} (h : JustAccepted s) {e : Engine} (he : width e = 32)
    (r : List (Fin 4 × Word)) : Completed s (complete r (afterDraw64 e s)) 2 := by
  obtain ⟨-, -, hn⟩ := h
  have hcount : (afterDraw64 e s).latch.n = 2 := by
    rw [afterDraw64_pcg e s he, afterDraw_latch, afterDraw_latch, hn]; rfl
  exact hcount ▸ completed_complete r (sameOutside_afterDraw64 e s)

/-- A command that needs an engine and has none ends with NOT_CONFIGURED and changes nothing else (R29). -/
theorem exec_unconfigured_failed {i : Instr} (hi : configuring i = false) {s : State} (h : s.type = none) :
    ∃ t, exec i s = .next t ∧ Failed s t .notConfigured :=
  ⟨_, exec_unconfigured i s hi h, failed_raiseError _ s⟩

/-- Settles O19: one draw into `RES0`; a PCG word is zero-extended, and the output functions of the 64-bit engines are
onto. -/
theorem nextwReturnsOneNativeWord : Obligations.NextwReturnsOneNativeWord := by
  unfold Obligations.NextwReturnsOneNativeWord
  refine ⟨by decide, fun v hop hv => decode_illegal_of_ne_encode (i := .nextw) (by decide) hop hv,
    fun s => exec_unconfigured_failed rfl, ?_, ?_, by decide⟩
  · intro s e hs he
    exact ⟨_, execNextw_some he, completed_afterDraw hs e _, rfl, rfl, rfl,
      fun hpcg => nextWord_pcg_lt s.w e ((width_eq_32_iff e).mpr hpcg)⟩
  · rintro e v (rfl | rfl)
    · exact exists_nextWord_xrs v
    · exact exists_nextWord_lxm v

/-- Settles O20: one draw, of which `RES0` gets the half the engine's width says; the low half of a PCG word is all of
it. -/
theorem next32ReturnsLowOrHighHalf : Obligations.Next32ReturnsLowOrHighHalf := by
  unfold Obligations.Next32ReturnsLowOrHighHalf
  refine ⟨by decide, fun v hop hv => decode_illegal_of_ne_encode (i := .next32) (by decide) hop hv,
    fun s => exec_unconfigured_failed rfl, ?_, ?_, by decide⟩
  · intro s e hs he
    refine ⟨_, execNext32_some he, completed_afterDraw hs e _, rfl, rfl, rfl, rfl, rfl, ?_⟩
    rw [← drawn32_toNat]
    exact BitVec.toNat_setWidth_of_le (by decide)
  · intro s e he hpcg
    have hdrawn := drawn32_setWidth_pcg ((width_eq_32_iff e).mpr hpcg) s
    rw [exec, exec, execNext32_some he, execNextw_some he, hdrawn]

/-- Settles O21, by the engine's width: two draws appended, the first one high, or one draw. -/
theorem next64PutsTheFirstDrawHigh : Obligations.Next64PutsTheFirstDrawHigh := by
  unfold Obligations.Next64PutsTheFirstDrawHigh
  refine ⟨by decide, fun v hop hv => decode_illegal_of_ne_encode (i := .next64) (by decide) hop hv,
    fun s => exec_unconfigured_failed rfl, ?_, ?_, ?_⟩
  · intro s e hs he hpcg
    have hwidth := (width_eq_32_iff e).mpr hpcg
    refine ⟨_, execNext64_some he, completed_afterDraw64_pcg hs hwidth _, afterDraw64_type e s, ?_, ?_⟩
    · rw [complete_w, afterDraw64_pcg e s hwidth, afterDraw_w, afterDraw_w]
    · rw [complete_res, afterDraw64_res]
      exact ⟨rfl, rfl, rfl, drawn64_pcg_toNat hwidth s⟩
  · intro s e hs he hwide
    have hwidth := (width_ne_32_iff e).mpr hwide
    have hexec := execNext64_some he
    rw [afterDraw64_wide e s hwidth, drawn64_wide hwidth] at hexec
    exact ⟨_, hexec, completed_afterDraw hs e _, rfl, rfl, rfl⟩
  · intro s _ hw
    rw [drawn64_pcg rfl, hw]
    decide

end Sys2Proof.Machine

/-! # The bounded family (`41_bounded.md`): the acceptance schemes (R122, R123), BND32 (R124), BND64 (R125) -/

namespace Sys2Proof.Machine

/-! ### The limit check (R124, R125, R129) -/

theorem badLimit_of_nonpos {n : Nat} {l : BitVec n} (h : l.toInt ≤ 0) : badLimit l = true := decide_eq_true h

theorem badLimit_of_pos {n : Nat} {l : BitVec n} (h : 0 < l.toInt) : badLimit l = false :=
  decide_eq_false (not_le.mpr h)

theorem toNat_pos_of_toInt_pos {n : Nat} {l : BitVec n} (h : 0 < l.toInt) : 0 < l.toNat := by
  rw [BitVec.toInt_eq_toNat_cond] at h
  split at h <;> omega

/-! ### The general scheme (R120, R122) -/

/-- A power-of-two limit takes the low bits of any candidate (R122). -/
theorem generalAccept_pow2 {n : Nat} {l : BitVec n} (h : l &&& (l - 1) = 0) (c : BitVec n) :
    generalAccept c l = some (c &&& (l - 1)) := if_pos (decide_eq_true h)

/-- Any other limit is the modulo scheme's (R120). -/
theorem generalAccept_not_pow2 {n : Nat} {l : BitVec n} (h : l &&& (l - 1) ≠ 0) (c : BitVec n) :
    generalAccept c l = modAccept c l := if_neg (mt of_decide_eq_true h)

/-- The mask `2^k - 1` keeps the remainder modulo `2^k`. -/
theorem and_ofNat_two_pow_sub_one {n k : Nat} (hk : k < n) (c : BitVec n) :
    c &&& (BitVec.ofNat n (2 ^ k) - 1) = BitVec.ofNat n (c.toNat % 2 ^ k) := by
  have hpow : 2 ^ k < 2 ^ n := Nat.pow_lt_pow_right (by decide) hk
  have hpos : 0 < 2 ^ k := Nat.two_pow_pos k
  have hone : (1 : BitVec n).toNat = 1 := BitVec.toNat_one (Nat.zero_lt_of_lt hk)
  have hlimit : (BitVec.ofNat n (2 ^ k)).toNat = 2 ^ k := Nat.mod_eq_of_lt hpow
  have hmask : (BitVec.ofNat n (2 ^ k) - 1).toNat = 2 ^ k - 1 := by
    rw [BitVec.toNat_sub_of_le (BitVec.le_def.mpr (by omega)), hlimit, hone]
  apply BitVec.eq_of_toNat_eq
  rw [BitVec.toNat_and, hmask, Nat.and_two_pow_sub_one_eq_mod, BitVec.toNat_ofNat,
    Nat.mod_eq_of_lt ((Nat.mod_lt _ hpos).trans hpow)]

/-- The limit `2^k` passes the test of R122 and leaves its candidate modulo `2^k`. -/
theorem generalAccept_two_pow {n k : Nat} (hk : k < n) (c : BitVec n) :
    generalAccept c (BitVec.ofNat n (2 ^ k)) = some (BitVec.ofNat n (c.toNat % 2 ^ k)) := by
  have htoNat : (BitVec.ofNat n (2 ^ k)).toNat = 2 ^ k := Nat.mod_eq_of_lt (Nat.pow_lt_pow_right (by decide) hk)
  have hpow : BitVec.ofNat n (2 ^ k) &&& (BitVec.ofNat n (2 ^ k) - 1) = 0 := by
    rw [and_ofNat_two_pow_sub_one hk, htoNat, Nat.mod_self]; rfl
  rw [generalAccept_pow2 hpow, and_ofNat_two_pow_sub_one hk]

/-- Settles O25: the mask is what the scheme's first branch returns, and the mask `2^k - 1` is the remainder. -/
theorem powerOfTwoLimitsKeepTheLowBits : Obligations.PowerOfTwoLimitsKeepTheLowBits := by
  unfold Obligations.PowerOfTwoLimitsKeepTheLowBits
  exact ⟨fun c l _ h => generalAccept_pow2 h c, fun c l _ h => generalAccept_pow2 h c,
    fun c k hk => generalAccept_two_pow (by omega) c, fun c k hk => generalAccept_two_pow (by omega) c⟩

/-! ### Lemire's scheme (R123) -/

/-- The product of the word's high half and the limit does not wrap in 64 bits. -/
theorem lemireProduct_toNat (w : Word) (l : Half) :
    ((highHalf w).setWidth 64 * l.setWidth 64).toNat = w.toNat / 2 ^ 32 * l.toNat := by
  have hlt : (highHalf w).toNat * l.toNat < 2 ^ 64 :=
    (Nat.mul_lt_mul'' (highHalf w).isLt l.isLt).trans_eq (by decide)
  rw [BitVec.toNat_mul, BitVec.toNat_setWidth_of_le (by decide), BitVec.toNat_setWidth_of_le (by decide),
    Nat.mod_eq_of_lt hlt, highHalf_toNat]

/-- Lemire's test and value in exact arithmetic (R123): the threshold is below the limit, so it fits in 32 bits. -/
theorem lemireAccept_eq (w : Word) {l : Half} (hl : 0 < l.toNat) :
    lemireAccept w l = if w.toNat / 2 ^ 32 * l.toNat % 2 ^ 32 < 2 ^ 32 % l.toNat then none
      else some (BitVec.ofNat 32 (w.toNat / 2 ^ 32 * l.toNat / 2 ^ 32)) := by
  have hthreshold : (BitVec.ofNat 32 (2 ^ 32 % l.toNat)).toNat = 2 ^ 32 % l.toNat :=
    Nat.mod_eq_of_lt ((Nat.mod_lt _ hl).trans l.isLt)
  rw [← lemireProduct_toNat, ← lowHalf_toNat, ← highHalf_toNat, BitVec.ofNat_toNat, BitVec.setWidth_eq]
  simp only [lemireAccept, BitVec.lt_def, hthreshold]

/-- Settles O26: the product is exact, and nothing is below the threshold 0 of a limit that divides 2^32. -/
theorem lemireSchemeIsExact : Obligations.LemireSchemeIsExact := by
  unfold Obligations.LemireSchemeIsExact
  intro w l hpos
  have heq := lemireAccept_eq w (toNat_pos_of_toInt_pos hpos)
  refine ⟨heq, fun hdvd => ?_⟩
  rw [heq, hdvd, if_neg (Nat.not_lt_zero _)]
  exact Option.some_ne_none _

/-! ### The candidates by engine (R124, R125) -/

section
variable {e : Engine} (s : State)

/-- `BND32` on a PCG engine runs the general scheme on the low half of the word drawn (R124). -/
theorem candidate32_pcg (he : e = .pcgXshRr32 ∨ e = .pcgXshRs32) :
    candidate32 e s = generalAccept (lowHalf (nextWord e s.w).1) (limit32 s) := if_pos ((width_eq_32_iff e).mpr he)

theorem candidate32_pow2 (he : e = .pcgXshRr32 ∨ e = .pcgXshRs32) (hl : limit32 s &&& (limit32 s - 1) = 0) :
    candidate32 e s = some (lowHalf (nextWord e s.w).1 &&& (limit32 s - 1)) := by
  rw [candidate32_pcg s he, generalAccept_pow2 hl]

theorem candidate32_modulo (he : e = .pcgXshRr32 ∨ e = .pcgXshRs32) (hl : limit32 s &&& (limit32 s - 1) ≠ 0) :
    candidate32 e s = modAccept (lowHalf (nextWord e s.w).1) (limit32 s) := by
  rw [candidate32_pcg s he, generalAccept_not_pow2 hl]

/-- `BND32` on a 64-bit engine runs Lemire's scheme on the whole word drawn, whatever the limit (R124). -/
theorem candidate32_lemire (he : e = .xrs128pp ∨ e = .l64x128mix) :
    candidate32 e s = lemireAccept (nextWord e s.w).1 (limit32 s) := if_neg ((width_ne_32_iff e).mpr he)

theorem candidate64_pow2 (hl : limit64 s &&& (limit64 s - 1) = 0) :
    candidate64 e s = some (drawn64 e s &&& (limit64 s - 1)) := generalAccept_pow2 hl _

theorem candidate64_modulo (hl : limit64 s &&& (limit64 s - 1) ≠ 0) :
    candidate64 e s = modAccept (drawn64 e s) (limit64 s) := generalAccept_not_pow2 hl _

/-! ### The engine after a 64-bit value (R104) -/

theorem afterDraw64_w_pcg (he : width e = 32) : (afterDraw64 e s).w = (nextWord e (nextWord e s.w).2).2 := by
  rw [afterDraw64_pcg e s he, afterDraw_w, afterDraw_w]

theorem afterDraw64_w_wide (he : width e ≠ 32) : (afterDraw64 e s).w = (nextWord e s.w).2 := by
  rw [afterDraw64_wide e s he, afterDraw_w]

end

/-- A 64-bit value adds its draws to the count (R101, R104). -/
@[simp] theorem afterDraw64_latch_n (e : Engine) (s : State) :
    (afterDraw64 e s).latch.n = s.latch.n + drawsOf64 e := by
  by_cases he : width e = 32
  · rw [afterDraw64_pcg e s he, drawsOf64, if_pos he, afterDraw_latch, afterDraw_latch, BitVec.add_assoc]; rfl
  · rw [afterDraw64_wide e s he, drawsOf64, if_neg he, afterDraw_latch]

/-! ### The end of a candidate's step (R126) -/

@[simp] theorem endCandidate_type (v : Option Word) (s : State) : (endCandidate v s).type = s.type := by
  cases v <;> rfl

@[simp] theorem endCandidate_w (v : Option Word) (s : State) : (endCandidate v s).w = s.w := by
  cases v <;> rfl

/-- An accepted candidate of one draw completes with the value in `RES0` and the draw counted. -/
theorem endCandidate_some_afterDraw (e : Engine) (s : State) (v : Word) :
    Completed s (endCandidate (some v) (afterDraw e s)) (s.latch.n + 1) ∧
      (endCandidate (some v) (afterDraw e s)).res = { s.res with w0 := v } :=
  ⟨completed_complete _ (sameOutside_afterDraw e s), rfl⟩

/-- An accepted 64-bit candidate completes with the value in `RES0` and its draws counted. -/
theorem endCandidate_some_afterDraw64 (e : Engine) (s : State) (v : Word) :
    Completed s (endCandidate (some v) (afterDraw64 e s)) (s.latch.n + drawsOf64 e) ∧
      (endCandidate (some v) (afterDraw64 e s)).res = { s.res with w0 := v } := by
  refine ⟨?_, by simp⟩
  rw [← afterDraw64_latch_n]
  exact completed_complete _ (sameOutside_afterDraw64 e s)

theorem wentOn_afterDraw (e : Engine) (s : State) : WentOn s (endCandidate none (afterDraw e s)) 1 :=
  ⟨rfl, rfl, rfl, rfl, rfl, rfl, rfl, rfl, rfl, rfl, sameOutside_afterDraw e s⟩

theorem wentOn_afterDraw64 (e : Engine) (s : State) :
    WentOn s (endCandidate none (afterDraw64 e s)) (drawsOf64 e) := by
  have hsame : SameOutside s (endCandidate none (afterDraw64 e s)) := sameOutside_afterDraw64 e s
  simpa [WentOn] using hsame

/-! ### The commands -/

/-- Settles O22: past the limit check the step ends with what the engine's scheme answers on one draw. -/
theorem bnd32TestsOneCandidateAStep : Obligations.Bnd32TestsOneCandidateAStep := by
  unfold Obligations.Bnd32TestsOneCandidateAStep
  refine ⟨by decide, by decide, by decide,
    fun v hop hv => decode_illegal_of_ne_encode (i := .bnd32) (by decide) hop hv,
    fun s => exec_unconfigured_failed rfl, ?_, ?_⟩
  · intro s e ⟨_, hfirst, _⟩ he hl
    exact ⟨_, execBnd32_bad he hfirst (badLimit_of_nonpos hl), failed_raiseError _ s⟩
  · rintro s e l c _ he rfl hpos rfl
    refine ⟨_, execBnd32_candidate he (.inr (badLimit_of_pos hpos)),
      endCandidate_type _ _, endCandidate_w _ _, ?_, ?_⟩
    · intro v hv
      have haccept : candidate32 e s = some v := by
        obtain ⟨hpcg, hpow, rfl⟩ | ⟨hpcg, hpow, hmod⟩ | ⟨hwide, hlemire⟩ := hv
        · exact candidate32_pow2 s hpcg hpow
        · exact (candidate32_modulo s hpcg hpow).trans hmod
        · exact (candidate32_lemire s hwide).trans hlemire
      rw [haccept]
      exact endCandidate_some_afterDraw e s _
    · intro hv
      have hreject : candidate32 e s = none := by
        obtain ⟨hpcg, hpow, hmod⟩ | ⟨hwide, hlemire⟩ := hv
        · exact (candidate32_modulo s hpcg hpow).trans hmod
        · exact (candidate32_lemire s hwide).trans hlemire
      rw [hreject]
      exact wentOn_afterDraw e s

/-- Settles O23: past the limit check the step ends with what the general scheme answers on the 64-bit value drawn. -/
theorem bnd64TestsOneCandidateAStep : Obligations.Bnd64TestsOneCandidateAStep := by
  unfold Obligations.Bnd64TestsOneCandidateAStep
  refine ⟨by decide, by decide,
    fun v hop hv => decode_illegal_of_ne_encode (i := .bnd64) (by decide) hop hv,
    fun s => exec_unconfigured_failed rfl, ?_, ?_⟩
  · intro s e ⟨_, hfirst, _⟩ he hl
    exact ⟨_, execBnd64_bad he hfirst (badLimit_of_nonpos hl), failed_raiseError _ s⟩
  · rintro s e l c w _ he rfl hpos hcand
    have hdraws : c = drawn64 e s ∧ w = (afterDraw64 e s).w := by
      obtain ⟨hpcg, rfl, rfl⟩ | ⟨hwide, rfl, rfl⟩ := hcand
      · have hwidth := (width_eq_32_iff e).mpr hpcg
        exact ⟨(drawn64_pcg hwidth s).symm, (afterDraw64_w_pcg s hwidth).symm⟩
      · have hwidth := (width_ne_32_iff e).mpr hwide
        exact ⟨(drawn64_wide hwidth s).symm, (afterDraw64_w_wide s hwidth).symm⟩
    obtain ⟨rfl, rfl⟩ := hdraws
    refine ⟨_, execBnd64_candidate he (.inr (badLimit_of_pos hpos)),
      (endCandidate_type _ _).trans (afterDraw64_type e s), endCandidate_w _ _, ?_, ?_, ?_⟩
    · intro hpow
      rw [candidate64_pow2 s hpow]
      exact endCandidate_some_afterDraw64 e s _
    · intro v hpow hmod
      rw [(candidate64_modulo s hpow).trans hmod]
      exact endCandidate_some_afterDraw64 e s _
    · intro hpow hmod
      rw [(candidate64_modulo s hpow).trans hmod]
      exact wentOn_afterDraw64 e s

end Sys2Proof.Machine

/-! # The PCG family (`42_pcg.md`): a draw (R141, R143), the XSH-RR output (R142), the XSH-RS output (R144) -/

namespace Sys2Proof.Machine

/-! ### The LCG step and a draw (R141, R143) -/

/-- The LCG step in exact arithmetic (R141). -/
theorem bump_toNat (inc x : Word) :
    (bump inc x).toNat = (x.toNat * 6364136223846793005 + inc.toNat) % 2 ^ 64 := by
  rw [bump, BitVec.toNat_add, BitVec.toNat_mul, Nat.mod_add_mod]
  rfl

/-- Both variants leave the same state: they differ in the output alone (R143). -/
theorem nextWord_pcg_state {e : Engine} (he : e = .pcgXshRr32 ∨ e = .pcgXshRs32) (w : Words4) :
    (nextWord e w).2 = { w with w0 := bump w.w1 w.w0 } := by
  obtain rfl | rfl := he
  · exact nextWord_rr_state w
  · exact nextWord_rs_state w

/-- Settles O39: the native word is an output of the old `s`, and both variants step the LCG alone. -/
theorem pcgDrawReadsTheOldState : Obligations.PcgDrawReadsTheOldState := by
  unfold Obligations.PcgDrawReadsTheOldState
  intro w
  refine ⟨?_, ?_, fun e he => ?_⟩
  · rw [nextWord_rr_value, BitVec.toNat_setWidth_of_le (by decide)]
  · rw [nextWord_rs_value, BitVec.toNat_setWidth_of_le (by decide)]
  · rw [nextWord_pcg_state he]
    exact ⟨bump_toNat w.w1 w.w0, rfl, rfl, rfl⟩

/-! ### Bits of the output functions -/

/-- The field above bit `k` of a word is a quotient: the rotation count of R142, the shift count of R144. -/
theorem toNat_extractLsb'_top {n k m : Nat} (x : BitVec n) (h : n ≤ k + m) :
    (x.extractLsb' k m).toNat = x.toNat / 2 ^ k := by
  have hlt : x.toNat / 2 ^ k < 2 ^ m := Nat.div_lt_of_lt_mul <|
    calc x.toNat < 2 ^ n := x.isLt
      _ ≤ 2 ^ (k + m) := Nat.pow_le_pow_right (by decide) h
      _ = 2 ^ k * 2 ^ m := Nat.pow_add 2 k m
  rw [BitVec.extractLsb'_toNat, Nat.shiftRight_eq_div_pow, Nat.mod_eq_of_lt hlt]

/-- Bit `j` of a 32-bit right rotation: the bit `r` places above, around the end. -/
theorem getLsbD_rotateRight32 (v : Half) (r : Nat) {j : Nat} (hj : j < 32) :
    (v.rotateRight r).getLsbD j = v.getLsbD ((j + r) % 32) := by
  rw [BitVec.getLsbD_rotateRight]
  by_cases h : j < 32 - r % 32
  · rw [show (j + r) % 32 = r % 32 + j by omega]; simp [h]
  · rw [show (j + r) % 32 = j - (32 - r % 32) by omega]; simp [h, hj]

/-- What R142 and R144 share, the low half of an xor-shift shifted down: bit `i` is the xor of two state bits. -/
theorem getLsbD_lowHalf_xorShift (x : Word) (a b : Nat) {i : Nat} (hi : i < 32) :
    (((x ^^^ (x >>> a)) >>> b).extractLsb' 0 32).getLsbD i = (x.getLsbD (b + i) ^^ x.getLsbD (a + b + i)) := by
  simp only [BitVec.getLsbD_extractLsb', BitVec.getLsbD_ushiftRight, BitVec.getLsbD_xor, hi, decide_true,
    Bool.true_and, Nat.zero_add, Nat.add_assoc]

/-- Settles O40: the rotation reads bit `(j + r) % 32` of the low half of the xor-shift by 18, shifted down by 27. -/
theorem xshRrOutputBits : Obligations.XshRrOutputBits := by
  unfold Obligations.XshRrOutputBits
  intro x j hj
  rw [xshRr, toNat_extractLsb'_top x (by decide), getLsbD_rotateRight32 _ _ hj,
    getLsbD_lowHalf_xorShift x 18 27 (Nat.mod_lt _ (by decide))]

/-- Settles O41: bit `j` of the low half of the xor-shift by 22, shifted down by 22 plus the top three bits. -/
theorem xshRsOutputBits : Obligations.XshRsOutputBits := by
  unfold Obligations.XshRsOutputBits
  refine ⟨fun x j hj => ?_, by decide⟩
  rw [xshRs, toNat_extractLsb'_top x (by decide), getLsbD_lowHalf_xorShift x 22 _ hj, ← Nat.add_assoc 22 22]

end Sys2Proof.Machine

/-! # The xoroshiro family (`43_xoroshiro.md`): a draw of XRS128PP (R161, R164) -/

namespace Sys2Proof.Machine

/-- Settles O45: the output and the update are both functions of the old words, and the pair `W2`, `W3` is not drawn from. -/
theorem xrsDrawReadsTheOldState : Obligations.XrsDrawReadsTheOldState := by
  unfold Obligations.XrsDrawReadsTheOldState
  refine ⟨fun w => ⟨?_, ?_⟩, by decide⟩
  · rw [nextWord_xrs_value, xrsOut]
  · rw [nextWord_xrs_state]
    exact ⟨rfl, rfl, rfl⟩

end Sys2Proof.Machine

/-! # The L64X128MIX family (`44_lxm.md`): a draw (R181, R184) -/

namespace Sys2Proof.Machine

/-- The LCG half of an L64X128MIX draw on numbers: `s' = LXM_M * s + a` modulo `2^64` (R181, R184). -/
theorem lxmM_mul_add_toNat (s a : Word) :
    (lxmM * s + a).toNat = (0xD1342543DE82EF95 * s.toNat + a.toNat) % 2 ^ 64 := by
  have hM : lxmM.toNat = 0xD1342543DE82EF95 := rfl
  rw [BitVec.toNat_add, BitVec.toNat_mul, Nat.mod_add_mod, hM]

/-- Settles O46: the output is a function of the old words, and the addend steps the LCG but is not stepped itself. -/
theorem lxmDrawReadsTheOldState : Obligations.LxmDrawReadsTheOldState := by
  unfold Obligations.LxmDrawReadsTheOldState
  refine ⟨fun w => ⟨nextWord_lxm_value w, ?_⟩, by decide⟩
  rw [nextWord_lxm_state]
  exact ⟨rfl, lxmM_mul_add_toNat w.w1 w.w0, rfl⟩

end Sys2Proof.Machine

/-! # The configuration and snapshot family (`45_config_snapshot.md`): SEED1 (R200), SEED2 (R201), LOAD (R202), what a
configuring command replaces (R203), SIZE (R204), SAVE (R206), RESTORE (R209, R210, R212) -/

namespace Sys2Proof

/-! ### The words of an opcode with an operand field (R72, R73, R77) -/

theorem opField_eq_iff (v : Word) (op : BitVec 8) : opField v = op ↔ v.toNat % 256 = op.toNat := by
  rw [← BitVec.toNat_inj, opField_toNat]

/-- The legal words with a configuring opcode, one for each engine it takes (R72, R73). -/
theorem configuring_word_of_legal {v : Word} (h : ¬∃ r, decode v = .illegal r) :
    (opField v = 0x01 → v ∈ [0x101, 0x201, 0x301, 0x401]) ∧ (opField v = 0x02 → v ∈ [0x102, 0x202, 0x302]) ∧
      (opField v = 0x03 → v = 0x403) := by
  rw [illegalWordsAreExactlyTheSevenCases.1 v] at h
  simp only [opField_eq_iff, List.mem_cons, List.not_mem_nil, or_false] at h ⊢
  refine ⟨?_, ?_, ?_⟩ <;> bv_omega

/-- Both operand fields of `RESTORE` are data, so only its reserved bits can be wrong (R73). -/
theorem decode_restore_illegal_iff {v : Word} (hop : opField v = 0x05) :
    (∃ r, decode v = .illegal r) ↔ v.toNat / 65536 ≠ 0 := by
  rw [opField_eq_iff] at hop
  rw [illegalWordsAreExactlyTheSevenCases.1 v]
  simp only [List.mem_cons, List.not_mem_nil, or_false]
  bv_omega

end Sys2Proof

namespace Sys2Proof.Machine

/-! ### Completions of a command that draws nothing -/

/-- A command just accepted that changes at most the engine and draws nothing completes with `CNT` = 0 (R36, R37). -/
theorem completed_undrawn {s s' : State} (h : JustAccepted s) (hout : SameOutside s s') (hlatch : s'.latch = s.latch)
    (r : List (Fin 4 × Word)) : Completed s (complete r s') 0 := by
  obtain ⟨-, -, hn⟩ := h
  have hcount : s'.latch.n = 0 := by rw [hlatch, hn]
  exact hcount ▸ completed_complete r hout

theorem completed_configure {s : State} (h : JustAccepted s) (e : Engine) (w : Words4) :
    Completed s (configure e w s) 0 :=
  completed_undrawn h ⟨rfl, rfl, rfl, rfl, rfl, rfl, rfl⟩ rfl []

/-! ### The words of the constructions -/

theorem golden2_eq : golden2 = 0x3C6EF372FE94F82A := by decide

/-- An increment is the shifted word with bit 0 set, in arithmetic twice the word plus 1 (R145, R148). -/
theorem shiftLeft_one_or_one (x : Word) : (x <<< 1) ||| 1 = 2 * x + 1 := by
  have hbit : x <<< 1 &&& 1 = 0 := by
    apply BitVec.eq_of_getLsbD_eq
    intro i _
    cases i <;> simp
  rw [← BitVec.add_eq_or_of_and_eq_zero _ _ hbit, BitVec.shiftLeft_eq_mul_twoPow, mul_comm]
  rfl

theorem rrmxmx_add_eq_zero_iff (v k : Word) : rrmxmx (v + k) = 0 ↔ v = -k := by
  rw [← rrmxmx_zero, rrmxmx_injective.eq_iff, add_eq_zero_iff_eq_neg]

/-- Besides the zero pair, the one pair that the mixers send to zero is `(-GOLDEN, -2*GOLDEN)` (R167). -/
theorem xrsSeed2_eq (seed0 seed1 : Word) :
    xrsSeed2 seed0 seed1 =
      if (seed0 = 0 ∧ seed1 = 0) ∨ (seed0 = -golden ∧ seed1 = -golden2) then xrsSeed1 0
      else ⟨rrmxmx (seed0 + golden), rrmxmx (seed1 + golden2), 0, 0⟩ := by
  simp only [xrsSeed2, rrmxmx_add_eq_zero_iff, ite_or]

theorem pcgSeed2_eq (seed0 seed1 : Word) :
    pcgSeed2 seed0 seed1 = ⟨bump (2 * seed1 + 1) (seed0 + (2 * seed1 + 1)), 2 * seed1 + 1, 0, 0⟩ := by
  rw [pcgSeed2, shiftLeft_one_or_one]

theorem pcgRestore_eq (v : Words4) : pcgRestore v = ⟨v.w0, 2 * v.w1 + 1, 0, 0⟩ := by
  rw [pcgRestore, shiftLeft_one_or_one]

/-- Where the sub-state of a `LOAD` is zero it is the one the seed expands to (R185, R186). -/
theorem lxmLoad_zero {v : Words4} (h : v.w2 = 0 ∧ v.w3 = 0) :
    lxmLoad v = ⟨v.w0 ||| 1, v.w1, stafford13 (v.w1 + golden), stafford13 (v.w1 + golden2)⟩ := if_pos h

theorem lxmLoad_nonzero {v : Words4} (h : ¬(v.w2 = 0 ∧ v.w3 = 0)) : lxmLoad v = ⟨v.w0 ||| 1, v.w1, v.w2, v.w3⟩ :=
  if_neg h

/-! ### The configuring commands (R200 to R203) -/

/-- Settles O30, by the engine: the completion is `configure`'s, and the words are its seeding rule on `L_ARG0`. -/
theorem seed1ConfiguresFromOneSeed : Obligations.Seed1ConfiguresFromOneSeed := by
  unfold Obligations.Seed1ConfiguresFromOneSeed
  refine ⟨by decide, by decide, by decide, by decide,
    fun v hop => not_imp_comm.mp fun hlegal => (configuring_word_of_legal hlegal).1 hop, ?_, by decide⟩
  rintro s e _ _ hs rfl rfl
  refine ⟨_, rfl, completed_configure hs e _, rfl, rfl, ?_, ?_, ?_⟩
  · rintro (rfl | rfl) <;> rfl
  · rintro rfl
    rw [← golden2_eq]
    rfl
  · rintro rfl
    rw [← golden2_eq]
    rfl

/-- Settles O31, by the engine: the PCG increment is the shifted `seed1`, and the mixers send one pair to zero. -/
theorem seed2ConfiguresFromTwoSeeds : Obligations.Seed2ConfiguresFromTwoSeeds := by
  unfold Obligations.Seed2ConfiguresFromTwoSeeds
  refine ⟨by decide, by decide, by decide,
    fun v hop => not_imp_comm.mp fun hlegal => (configuring_word_of_legal hlegal).2.1 hop,
    ?_, by decide, by decide, by decide, by decide⟩
  rintro s e _ _ _ hs hlxm rfl rfl rfl
  obtain ⟨w, hw⟩ : ∃ w, seedWords2 e (seed0Operand s) (seed1Operand s) = some w := by
    cases e with
    | l64x128mix => exact absurd rfl hlxm
    | _ => exact ⟨_, rfl⟩
  refine ⟨_, execSeed2_some hw, completed_configure hs e w, rfl, rfl, ?_, ?_⟩
  · rintro (rfl | rfl) <;> exact (Option.some.inj hw).symm.trans (pcgSeed2_eq _ _)
  · rintro rfl
    have hwords : w = xrsSeed2 s.latch.args.w0 s.latch.args.w1 := (Option.some.inj hw).symm
    rw [xrsSeed2_eq] at hwords
    exact ⟨fun hzero => hwords.trans (if_pos hzero), fun hmixed => hwords.trans (if_neg hmixed)⟩

/-- Settles O32, by the sub-state in `L_ARG2` and `L_ARG3`. -/
theorem loadConfiguresFromFourWords : Obligations.LoadConfiguresFromFourWords := by
  unfold Obligations.LoadConfiguresFromFourWords
  refine ⟨by decide, fun v hop => not_imp_comm.mp fun hlegal => (configuring_word_of_legal hlegal).2.2 hop,
    ?_, by decide, by decide⟩
  rintro s _ hs rfl
  refine ⟨_, rfl, completed_configure hs _ _, rfl, rfl, ?_⟩
  rw [configure_w, loadOperands, ← golden2_eq]
  by_cases hzero : s.latch.args.w2 = 0 ∧ s.latch.args.w3 = 0
  · rw [lxmLoad_zero hzero]
    exact ⟨rfl, rfl, absurd hzero, fun _ => ⟨rfl, rfl⟩⟩
  · rw [lxmLoad_nonzero hzero]
    exact ⟨rfl, rfl, fun _ => ⟨rfl, rfl⟩, fun h => absurd h hzero⟩

theorem xrsSeed2_unused (seed0 seed1 : Word) : (xrsSeed2 seed0 seed1).w2 = 0 ∧ (xrsSeed2 seed0 seed1).w3 = 0 := by
  rw [xrsSeed2_eq]
  split <;> exact ⟨rfl, rfl⟩

/-- A configuring command with an encoding replaces the whole engine state by words that depend on the latch and the
parameter alone, with 0 in the words its engine leaves unused (R203). -/
theorem exec_configure {i : Instr} (hi : configuring i = true) (hwf : i.wf = true) :
    ∃ (e : Engine) (words : Latch → Word → Words4),
      (e ≠ .l64x128mix → ∀ l d, (words l d).w2 = 0 ∧ (words l d).w3 = 0) ∧
        ∀ s, exec i s = .next (configure e (words s.latch s.pcgDefaultInc) s) := by
  cases i with
  | seed1 e =>
    refine ⟨e, fun l d => seedWords1 d e l.args.w0, fun he l d => ?_, fun _ => rfl⟩
    cases e with
    | l64x128mix => exact absurd rfl he
    | _ => exact ⟨rfl, rfl⟩
  | seed2 e =>
    cases e with
    | pcgXshRr32 => exact ⟨_, fun l _ => pcgSeed2 l.args.w0 l.args.w1, fun _ _ _ => ⟨rfl, rfl⟩, fun _ => rfl⟩
    | pcgXshRs32 => exact ⟨_, fun l _ => pcgSeed2 l.args.w0 l.args.w1, fun _ _ _ => ⟨rfl, rfl⟩, fun _ => rfl⟩
    | xrs128pp =>
      exact ⟨_, fun l _ => xrsSeed2 l.args.w0 l.args.w1, fun _ _ _ => xrsSeed2_unused _ _, fun _ => rfl⟩
    | l64x128mix => cases hwf
  | load => exact ⟨_, fun l _ => lxmLoad l.args, fun he => absurd rfl he, fun _ => rfl⟩
  | save | restore | size | nextw | next32 | next64 | bnd32 | bnd64 => cases hi

theorem whenConfigured_type {s t : State} {rule : Engine → State → State} (h : whenConfigured s rule = .next t)
    (hrule : ∀ e, (rule e s).type = s.type) : t.type = s.type := by
  obtain ⟨-, rfl⟩ | ⟨e, -, rfl⟩ := whenConfigured_cases h
  · rfl
  · exact hrule e

/-- A command that is not a configuring one leaves `TYPE`, on whatever path its rule takes (R203). -/
theorem exec_type {i : Instr} (hi : configuring i = false) {s t : State} (h : exec i s = .next t) : t.type = s.type := by
  cases i with
  | seed1 | seed2 | load => cases hi
  | save => rw [exec, execSave] at h; exact whenConfigured_type h fun _ => rfl
  | size => rw [exec, execSize] at h; exact whenConfigured_type h fun _ => rfl
  | nextw => rw [exec, execNextw] at h; exact whenConfigured_type h fun e => afterDraw_type e s
  | next32 => rw [exec, execNext32] at h; exact whenConfigured_type h fun e => afterDraw_type e s
  | next64 => rw [exec, execNext64] at h; exact whenConfigured_type h fun e => afterDraw64_type e s
  | restore tag len =>
    rw [exec, execRestore] at h
    refine whenConfigured_type h fun e => ?_
    split
    · split <;> rfl
    · rfl
  | bnd32 =>
    rw [exec, execBnd32] at h
    refine whenConfigured_type h fun e => ?_
    split
    · rfl
    · rw [endCandidate_type, afterDraw_type]
  | bnd64 =>
    rw [exec, execBnd64] at h
    refine whenConfigured_type h fun e => ?_
    split
    · rfl
    · rw [endCandidate_type, afterDraw64_type]

/-- Settles O33: a configuring command's words do not read the engine state, and any other command's rule leaves `TYPE`. -/
theorem onlyConfiguringCommandsWriteType : Obligations.OnlyConfiguringCommandsWriteType := by
  unfold Obligations.OnlyConfiguringCommandsWriteType
  refine ⟨fun i s u hi hwf hlatch hinc => ?_, fun i s t hi h => exec_type hi h⟩
  obtain ⟨e, words, hunused, hexec⟩ := exec_configure hi hwf
  refine ⟨_, _, e, hexec s, hexec u, rfl, rfl, ?_, fun he => hunused he _ _⟩
  rw [configure_w, configure_w, hlatch, hinc]

/-! ### SIZE and SAVE (R204 to R207) -/

/-- Settles O34: the completion writes `RES0` alone, with the size `STATUS` reports. -/
theorem sizeReportsTheSnapshotWords : Obligations.SizeReportsTheSnapshotWords := by
  unfold Obligations.SizeReportsTheSnapshotWords
  refine ⟨by decide, fun v hop hv => decode_illegal_of_ne_encode (i := .size) (by decide) hop hv,
    fun s => exec_unconfigured_failed rfl, ?_⟩
  intro s e hs he
  have hsize : (stateSize e).setWidth 64 = if e = .l64x128mix then (4 : Word) else 2 := by cases e <;> decide
  refine ⟨_, execSize_some he, completed_undrawn hs (sameOutside_refl s) rfl _, rfl, rfl, ?_, ?_⟩
  · rw [← hsize]
    rfl
  · rw [complete_type, he]
    rfl

/-- `SAVE` assigns every result, so nothing of the old ones is left (R206). -/
theorem assignRes_all (v q : Words4) : assignRes [(0, v.w0), (1, v.w1), (2, v.w2), (3, v.w3)] q = v := rfl

/-- The saved PCG increment is halved, rounding down: the logical shift of R147. -/
theorem ushiftRight_one_eq_half (x : Word) : x >>> 1 = BitVec.ofNat 64 (x.toNat / 2) := by
  apply BitVec.eq_of_toNat_eq
  have := x.isLt
  rw [BitVec.toNat_ushiftRight, Nat.shiftRight_eq_div_pow, BitVec.toNat_ofNat]
  omega

theorem pcgSave_eq (w : Words4) : pcgSave w = ⟨w.w0, BitVec.ofNat 64 (w.w1.toNat / 2), 0, 0⟩ := by
  rw [pcgSave, ushiftRight_one_eq_half]

/-- Settles O35, by the engine: the results are all assigned and are the words of its snapshot. -/
theorem saveCopiesTheSnapshotToTheResults : Obligations.SaveCopiesTheSnapshotToTheResults := by
  unfold Obligations.SaveCopiesTheSnapshotToTheResults
  refine ⟨by decide, fun v hop hv => decode_illegal_of_ne_encode (i := .save) (by decide) hop hv,
    fun s => exec_unconfigured_failed rfl, ?_⟩
  intro s e hs he
  refine ⟨_, execSave_some he, completed_undrawn hs (sameOutside_refl s) rfl _, rfl, rfl, ?_⟩
  rw [complete_res, assignRes_all]
  refine ⟨?_, ?_, ?_⟩
  · rintro (rfl | rfl) <;> exact pcgSave_eq s.w
  · rintro rfl
    rfl
  · rintro rfl
    rfl

/-! ### RESTORE (R209, R210, R212) -/

/-- The checks of R210 that fail, as the statements name them. -/
theorem tagAndLengthOk_eq_false_iff (e : Engine) (tag len : BitVec 4) :
    tagAndLengthOk e tag len = false ↔ tag = 0 ∨ tag ≠ e.code ∨ len ≠ stateSize e := by
  simp only [tagAndLengthOk, Bool.and_eq_false_iff, decide_eq_false_iff_not, not_not, or_assoc]

/-- A restore finds no words exactly when the content fails the check of R212. -/
theorem restoreWords_eq_none_iff (e : Engine) (v : Words4) : restoreWords e v = none ↔ BadContent e v := by
  cases e with
  | pcgXshRr32 | pcgXshRs32 => simp only [restoreWords, BadContent, reduceCtorEq]
  | xrs128pp =>
    simp only [restoreWords, xrsRestore, BadContent, ite_eq_left_iff, reduceCtorEq, imp_false, not_not]
  | l64x128mix =>
    simp only [restoreWords, lxmRestore, BadContent, ← ite_or, ite_eq_left_iff, reduceCtorEq, imp_false, not_not]

theorem badRestore_iff (e : Engine) (tag len : BitVec 4) (v : Words4) :
    BadRestore e tag len v ↔ tagAndLengthOk e tag len = false ∨ restoreWords e v = none := by
  rw [tagAndLengthOk_eq_false_iff, restoreWords_eq_none_iff, BadRestore, or_assoc, or_assoc]

/-- The words a restore installs, by engine (R148, R169, R190). -/
theorem restoreWords_eq_some {e : Engine} {v w : Words4} (h : restoreWords e v = some w) :
    (e = .pcgXshRr32 ∨ e = .pcgXshRs32 → w = ⟨v.w0, 2 * v.w1 + 1, 0, 0⟩) ∧
      (e = .xrs128pp → w = ⟨v.w0, v.w1, 0, 0⟩) ∧ (e = .l64x128mix → w = v) := by
  refine ⟨?_, ?_, ?_⟩
  · rintro (rfl | rfl) <;> exact (Option.some.inj h).symm.trans (pcgRestore_eq v)
  · rintro rfl
    obtain ⟨-, hw⟩ := Option.ite_none_left_eq_some.mp h
    exact (Option.some.inj hw).symm
  · rintro rfl
    obtain ⟨-, hrest⟩ := Option.ite_none_left_eq_some.mp h
    obtain ⟨-, hw⟩ := Option.ite_none_left_eq_some.mp hrest
    exact (Option.some.inj hw).symm

/-- Settles O36, by the checks of R210 and R212: what they reject is an error completion, what they pass is installed. -/
theorem restoreInstallsOrRefusesTheSnapshot : Obligations.RestoreInstallsOrRefusesTheSnapshot := by
  unfold Obligations.RestoreInstallsOrRefusesTheSnapshot
  refine ⟨fun v => decode_restore_illegal_iff, fun s tag len => exec_unconfigured_failed rfl, ?_⟩
  rintro s e tag len _ hs he rfl
  by_cases hbad : BadRestore e tag len s.latch.args
  · exact ⟨_, execRestore_bad he ((badRestore_iff _ _ _ _).mp hbad), rfl, rfl, fun _ => failed_raiseError _ s,
      fun h => absurd hbad h⟩
  · obtain ⟨htag, hcontent⟩ := not_or.mp (mt (badRestore_iff _ _ _ _).mpr hbad)
    obtain ⟨w, hw⟩ := Option.ne_none_iff_exists'.mp hcontent
    exact ⟨_, execRestore_ok he (Bool.of_not_eq_false htag) hw, rfl, rfl, fun h => absurd h hbad,
      fun _ => ⟨completed_undrawn hs ⟨rfl, rfl, rfl, rfl, rfl, rfl, rfl⟩ rfl [], restoreWords_eq_some hw⟩⟩

end Sys2Proof.Machine

/-! # The exceptions family (`60_exceptions.md`): the order of the checks (R243), error completion (R244), `irq` (R247) -/

namespace Sys2Proof

/-! ### What decodes has an encoding (R77, R78) -/

theorem decodePlain_ne_ok {i j : Instr} (hij : i ≠ j) (ty len : BitVec 4) : decodePlain ty len i ≠ .ok j := by
  rw [decodePlain]
  split
  · exact mt Decoded.ok.inj hij
  · nofun

theorem decodeSeed1_ne_seed2 (ty len : BitVec 4) (e : Engine) : decodeSeed1 ty len ≠ .ok (.seed2 e) := by
  rw [decodeSeed1]
  cases Engine.ofCode ty with
  | none => nofun
  | some _ => dsimp only; split <;> nofun

/-- `SEED2` checks its type: the reserved pair is no command (R77, R188). -/
theorem decodeSeed2_ne_lxm (ty len : BitVec 4) : decodeSeed2 ty len ≠ .ok (.seed2 .l64x128mix) := by
  rw [decodeSeed2]
  cases Engine.ofCode ty with
  | none => nofun
  | some e =>
    cases e with
    | l64x128mix => nofun
    | _ => dsimp only; split <;> nofun

/-- Nor does any other opcode's rule answer the reserved pair. -/
theorem decodeFields_ne_seed2_lxm (op : BitVec 8) (ty len : BitVec 4) :
    decodeFields op ty len ≠ .ok (.seed2 .l64x128mix) := by
  simp only [decodeFields, decodeLoad, ne_eq, ite_eq_iff, decodePlain_ne_ok, decodeSeed1_ne_seed2, decodeSeed2_ne_lxm,
    reduceCtorEq, not_false_eq_true, Decoded.ok.injEq, and_false, or_false]

/-- What decodes is a command with an encoding. -/
theorem decode_wf {v : Word} {i : Instr} (h : decode v = .ok i) : i.wf = true := by
  rw [decode] at h
  split at h
  · cases i with
    | seed2 e => exact decide_eq_true fun he => decodeFields_ne_seed2_lxm _ _ _ (he ▸ h)
    | _ => rfl
  · cases h

end Sys2Proof

namespace Sys2Proof.Machine

/-! ### What ends a command (R37, R244) -/

/-- An engine step that ends its command is an error completion or a successful one: the end of a rejected candidate's
step leaves `BUSY` = 1. -/
theorem engineStep_completion {s t : State} (hbusy : s.busy = true) (h : engineStep s = .next t)
    (hend : t.busy = false) :
    (∃ c, c ≠ .ok ∧ t = raiseError c s) ∨ ∃ r s', t = complete r s' ∧ SameOutside s s' := by
  obtain ⟨_, -, rfl⟩ | ⟨i, -, hexec⟩ := engineStep_cases h
  · exact .inl ⟨.illegalCommand, nofun, rfl⟩
  obtain herror | ⟨r, s', ht, hout, -⟩ | ⟨-, e, -, rfl | rfl⟩ := exec_cases hexec
  · exact .inl herror
  · exact .inr ⟨r, s', ht, hout⟩
  · obtain ⟨hgo, -⟩ := wentOn_afterDraw e s
    exact absurd (hgo.trans hbusy) (Bool.eq_false_iff.mp hend)
  · obtain ⟨hgo, -⟩ := wentOn_afterDraw64 e s
    exact absurd (hgo.trans hbusy) (Bool.eq_false_iff.mp hend)

/-! ### The interrupt (R247) -/

/-- A completion of either kind sets `DONE` and leaves `IE`, so it makes `irq` equal `IE`. -/
theorem irq_of_completion {s t : State} (hbusy : s.busy = true) (h : engineStep s = .next t)
    (hend : t.busy = false) : irq t = s.ie := by
  obtain ⟨c, -, rfl⟩ | ⟨r, s', rfl, -, hie, -⟩ := engineStep_completion hbusy h hend
  · rfl
  · exact hie

/-- Settles O7: each write is its register's, and the end of a command is a completion. -/
theorem irqIsDoneAndEnable : Obligations.IrqIsDoneAndEnable := by
  unfold Obligations.IrqIsDoneAndEnable
  intro s t v
  refine ⟨rfl, ?_, ?_, ?_, rfl, irq_of_completion⟩
  · intro h
    obtain rfl := Option.some.inj ((memWrite_regOffset .ctrl v s).symm.trans h)
    rfl
  · intro h hbit
    obtain rfl := Option.some.inj ((memWrite_regOffset .status v s).symm.trans h)
    simp [irq, writeReg, hbit]
  · intro h hidle
    obtain rfl := Option.some.inj ((memWrite_cmd v s).symm.trans h)
    rw [writeCmd_idle v s hidle]
    rfl

/-- Settles O17: what ends a command with a code other than OK is `raiseError`, which is whole. -/
theorem errorCompletionChangesNothingElse : Obligations.ErrorCompletionChangesNothingElse := by
  unfold Obligations.ErrorCompletionChangesNothingElse
  intro s t hbusy h hend herr
  refine ⟨?_, irq_of_completion hbusy h hend⟩
  obtain ⟨c, -, rfl⟩ | ⟨r, s', rfl, -⟩ := engineStep_completion hbusy h hend
  · exact failed_raiseError c s
  · exact absurd rfl herr

/-! ### A step that passes the checks (R243) -/

/-- The step is taken, and it succeeds or goes on past its checks. -/
def StepsWithoutError (o : Host.Outcome State Fault Refusal) : Prop :=
  ∃ t, o = .next t ∧ (t.busy = false → t.err = .ok) ∧ (t.busy = true → t.latch.first = false)

theorem stepsWithoutError_complete (r : List (Fin 4 × Word)) (s : State) :
    StepsWithoutError (.next (complete r s)) :=
  ⟨_, rfl, fun _ => rfl, nofun⟩

/-- A candidate's step raises nothing, accepted or rejected (R126). -/
theorem stepsWithoutError_endCandidate (v : Option Word) {s : State} (hbusy : s.busy = true) :
    StepsWithoutError (.next (endCandidate v s)) := by
  cases v with
  | some r => exact stepsWithoutError_complete _ s
  | none => exact ⟨_, rfl, fun hend => absurd hbusy (Bool.eq_false_iff.mp hend), fun _ => rfl⟩

section
variable {s : State} {e : Engine}

theorem execBnd32_stepsWithoutError (hbusy : s.busy = true) (he : s.type = some e) (hl : 0 < (limit32 s).toInt) :
    StepsWithoutError (execBnd32 s) := by
  rw [execBnd32_candidate he (.inr (badLimit_of_pos hl))]
  exact stepsWithoutError_endCandidate _ hbusy

theorem execBnd64_stepsWithoutError (hbusy : s.busy = true) (he : s.type = some e) (hl : 0 < (limit64 s).toInt) :
    StepsWithoutError (execBnd64 s) := by
  rw [execBnd64_candidate he (.inr (badLimit_of_pos hl))]
  exact stepsWithoutError_endCandidate _ ((afterDraw64_busy e s).trans hbusy)

theorem execRestore_stepsWithoutError {tag len : BitVec 4} (he : s.type = some e)
    (hgood : ¬BadRestore e tag len s.latch.args) : StepsWithoutError (execRestore tag len s) := by
  rw [badRestore_iff, not_or] at hgood
  obtain ⟨htag, hcontent⟩ := hgood
  obtain ⟨w, hw⟩ := Option.ne_none_iff_exists'.mp hcontent
  rw [execRestore_ok he (Bool.of_not_eq_false htag) hw]
  exact stepsWithoutError_complete _ _

/-- Configuring commands have no check of their own (R242). -/
theorem exec_configuring_stepsWithoutError {i : Instr} (hi : configuring i = true) (hwf : i.wf = true) (s : State) :
    StepsWithoutError (exec i s) := by
  obtain ⟨_, _, -, hexec⟩ := exec_configure hi hwf
  rw [hexec]
  exact stepsWithoutError_complete _ _

/-- On a configured engine only a limit and a snapshot can be at fault. -/
theorem exec_configured_stepsWithoutError {i : Instr} (hi : configuring i = false) (hbusy : s.busy = true)
    (he : s.type = some e) (h32 : i = .bnd32 → 0 < (limit32 s).toInt) (h64 : i = .bnd64 → 0 < (limit64 s).toInt)
    (hrestore : ∀ tag len, i = .restore tag len → ¬BadRestore e tag len s.latch.args) :
    StepsWithoutError (exec i s) := by
  cases i with
  | seed1 | seed2 | load => cases hi
  | save => rw [exec, execSave_some he]; exact stepsWithoutError_complete _ _
  | size => rw [exec, execSize_some he]; exact stepsWithoutError_complete _ _
  | nextw => rw [exec, execNextw_some he]; exact stepsWithoutError_complete _ _
  | next32 => rw [exec, execNext32_some he]; exact stepsWithoutError_complete _ _
  | next64 => rw [exec, execNext64_some he]; exact stepsWithoutError_complete _ _
  | restore tag len => exact execRestore_stepsWithoutError he (hrestore tag len rfl)
  | bnd32 => exact execBnd32_stepsWithoutError hbusy he (h32 rfl)
  | bnd64 => exact execBnd64_stepsWithoutError hbusy he (h64 rfl)

end

/-- The engine's step on a word that decodes is its command's (R35). -/
theorem engineStep_ok {s : State} {i : Instr} (h : decode s.latch.cmd = .ok i) : engineStep s = exec i s := by
  rw [engineStep, h]

/-- A later step of a bounded command goes on with the limit its first step found valid (R126, R129). -/
theorem engineStep_inLoop {s : State} (hbusy : s.busy = true) (hloop : InLoop s) :
    StepsWithoutError (engineStep s) := by
  obtain ⟨htype, hcmd⟩ := hloop
  obtain ⟨e, he⟩ := Option.ne_none_iff_exists'.mp htype
  obtain ⟨hdecode, hl⟩ | ⟨hdecode, hl⟩ := hcmd
  · rw [engineStep_ok hdecode]
    exact execBnd32_stepsWithoutError hbusy he hl
  · rw [engineStep_ok hdecode]
    exact execBnd64_stepsWithoutError hbusy he hl

/-- Settles O16, check by check: each that fails ends the step with `raiseError`, and past them all nothing does. -/
theorem checksRunInTheSpecifiedOrder : Obligations.ChecksRunInTheSpecifiedOrder := by
  unfold Obligations.ChecksRunInTheSpecifiedOrder
  constructor
  · intro s hbusy _ hloop
    obtain ⟨t, ht, hok, -⟩ := engineStep_inLoop hbusy hloop
    exact ⟨t, ht, hok⟩
  · intro s ⟨hbusy, hfirst, _⟩
    refine ⟨fun r hr => ⟨_, engineStep_illegal hr, failed_raiseError _ s⟩, fun i hi => ?_⟩
    rw [engineStep_ok hi]
    refine ⟨fun hc => exec_unconfigured_failed hc, fun e he => ⟨?_, ?_, ?_⟩, ?_⟩
    · rintro rfl hl
      exact ⟨_, execBnd32_bad he hfirst (badLimit_of_nonpos hl), failed_raiseError _ s⟩
    · rintro rfl hl
      exact ⟨_, execBnd64_bad he hfirst (badLimit_of_nonpos hl), failed_raiseError _ s⟩
    · rintro tag len rfl hbad
      exact ⟨_, execRestore_bad he ((badRestore_iff _ _ _ _).mp hbad), failed_raiseError _ s⟩
    · intro hconfigured h32 h64 hrestore
      cases hc : configuring i with
      | true => exact exec_configuring_stepsWithoutError hc (decode_wf hi) s
      | false =>
        obtain ⟨e, he⟩ := Option.ne_none_iff_exists'.mp fun hnone => hconfigured ⟨hc, hnone⟩
        exact exec_configured_stepsWithoutError hc hbusy he (fun h => not_le.mp fun hl => h32 ⟨h, hl⟩)
          (fun h => not_le.mp fun hl => h64 ⟨h, hl⟩) (fun tag len => hrestore e tag len he)

end Sys2Proof.Machine

/-! # The reset family (`70_reset_and_hazards.md`): the reset input (R270) -/

namespace Sys2Proof.Machine

/-! ### A turn the schedule names (R7, R270) -/

/-- Where the schedule names the next agent, the step is that agent's turn (R7). -/
theorem step_of_turns_cons {s : State} {k : Turn} {rest : List Turn} (h : s.turns = k :: rest) :
    step s = takeTurn k { s with turns := rest } := by
  obtain ⟨hnil, -⟩ | ⟨k', rest', hcons, hstep⟩ := step_turn s
  · cases h.symm.trans hnil
  · cases h.symm.trans hcons
    exact hstep

/-- On a turn of the reset input the step is `resetBlock`, with no premise on `BUSY` or on the latch (R270). -/
theorem step_of_turns_reset {s : State} {rest : List Turn} (h : s.turns = .reset :: rest) :
    step s = .next (resetBlock { s with turns := rest }) :=
  step_of_turns_cons h

/-! ### The block after the reset input (R38, R270) -/

/-- Reset clears both `DONE` and `IE`, so it lowers `irq` (R247). -/
theorem irq_resetBlock (s : State) : irq (resetBlock s) = false := by
  rw [irq, resetBlock_done, Bool.false_and]

/-- Settles O2: a reset turn is `resetBlock`, whose registers, flags and engine words are fixed whatever the state. -/
theorem resetInputAbandonsTheRunningCommand : Obligations.ResetInputAbandonsTheRunningCommand := by
  unfold Obligations.ResetInputAbandonsTheRunningCommand
  intro s rest h
  have hid : memRead (resetBlock { s with turns := rest }) 0 = some 0x000F000150524E47 := memRead_regOffset _ .id
  exact ⟨_, step_of_turns_reset h, resetBlock_ie _, resetBlock_busy _, resetBlock_done _, resetBlock_ovr _,
    resetBlock_err _, resetBlock_arg _, resetBlock_res _, resetBlock_cnt _, resetBlock_type _, resetBlock_w _,
    irq_resetBlock _, hid⟩

end Sys2Proof.Machine

/-! # The other family, the encoding (`30_encoding.md`): decoder and encoder (R71 to R79), the assembler (R79) -/

namespace Sys2Proof

/-! ### Decoding an encoding (R71, R78) -/

/-- The decoder of an encoding goes by the fields the command is written with. -/
theorem decode_encode_eq_decodeFields (i : Instr) : decode (encode i) = decodeFields i.opcode i.ty i.len := by
  rw [decode, if_pos (rsvField_encode i), opField_encode, tyField_encode, lenField_encode]

/-- The rule of a command's opcode accepts the fields it is written with, and keeps the operands. -/
theorem decodeFields_fields {i : Instr} (hwf : i.wf = true) : decodeFields i.opcode i.ty i.len = .ok i := by
  cases i with
  | seed1 e => cases e <;> rfl
  | seed2 e =>
    cases e with
    | l64x128mix => cases hwf
    | _ => rfl
  | _ => rfl

/-- Settles O9: the fields of the encoding are the command's, and the rule of its opcode accepts them. -/
theorem decodeOfEncodeIsTheCommand : Obligations.DecodeOfEncodeIsTheCommand := by
  unfold Obligations.DecodeOfEncodeIsTheCommand
  intro i hwf
  rw [decode_encode_eq_decodeFields, decodeFields_fields hwf]

/-! ### Encoding what was decoded (R77, R79) -/

/-- The command is written with these fields. -/
def WrittenWith (i : Instr) (op : BitVec 8) (ty len : BitVec 4) : Prop := i.opcode = op ∧ i.ty = ty ∧ i.len = len

/-- A type code that names an engine is that engine's (R3). -/
theorem code_of_engineOfCode {c : BitVec 4} {e : Engine} (h : Engine.ofCode c = some e) : e.code = c := by
  revert c e
  have hcodes : ∀ c : BitVec 4, ∀ e ∈ Engine.ofCode c, e.code = c := by decide
  exact fun {c e} h => hcodes c e h

section
variable {ty len : BitVec 4} {i : Instr}

theorem writtenWith_of_decodePlain {j : Instr} (hj : j.opcode ∈ [0x04, 0x06, 0x10, 0x11, 0x12, 0x20, 0x21])
    (h : decodePlain ty len j = .ok i) : WrittenWith i j.opcode ty len := by
  rw [decodePlain] at h
  split at h
  · rename_i hfields
    obtain ⟨rfl, rfl⟩ := hfields
    cases h
    exact ⟨rfl, plain_fields_eq_zero hj⟩
  · cases h

theorem writtenWith_of_decodeSeed1 (h : decodeSeed1 ty len = .ok i) : WrittenWith i 0x01 ty len := by
  rw [decodeSeed1] at h
  cases hcode : Engine.ofCode ty with
  | none => simp [hcode] at h
  | some e =>
    simp only [hcode] at h
    split at h
    · cases h
      exact ⟨rfl, code_of_engineOfCode hcode, Eq.symm ‹_›⟩
    · cases h

theorem writtenWith_of_decodeSeed2 (h : decodeSeed2 ty len = .ok i) : WrittenWith i 0x02 ty len := by
  rw [decodeSeed2] at h
  cases hcode : Engine.ofCode ty with
  | none => simp [hcode] at h
  | some e =>
    have hcheck : (if len = 0 then Decoded.ok (.seed2 e) else .illegal .configLength) = .ok i := by
      cases e with
      | l64x128mix => simp [hcode] at h
      | _ => simpa only [hcode] using h
    split at hcheck
    · cases hcheck
      exact ⟨rfl, code_of_engineOfCode hcode, Eq.symm ‹_›⟩
    · cases hcheck

theorem writtenWith_of_decodeLoad (h : decodeLoad ty len = .ok i) : WrittenWith i 0x03 ty len := by
  rw [decodeLoad] at h
  split at h
  · split at h
    · cases h
      exact ⟨rfl, Eq.symm ‹_›, Eq.symm ‹_›⟩
    · cases h
  · cases h

/-- The rule that the commands with no operand field share is that of the command with the opcode (R72, R78). -/
theorem decodeFields_plainOpcode {op : BitVec 8} (h : op ∈ [0x04, 0x06, 0x10, 0x11, 0x12, 0x20, 0x21])
    (ty len : BitVec 4) : ∃ j : Instr, j.opcode = op ∧ decodeFields op ty len = decodePlain ty len j := by
  simp only [List.mem_cons, List.not_mem_nil, or_false] at h
  obtain rfl | rfl | rfl | rfl | rfl | rfl | rfl := h <;> exact ⟨_, rfl, rfl⟩

/-- Whatever the opcode, the rule that accepts the fields answers a command written with them. -/
theorem writtenWith_of_decodeFields {op : BitVec 8} (h : decodeFields op ty len = .ok i) : WrittenWith i op ty len := by
  by_cases hplain : op ∈ [0x04, 0x06, 0x10, 0x11, 0x12, 0x20, 0x21]
  · obtain ⟨j, rfl, hj⟩ := decodeFields_plainOpcode hplain ty len
    exact writtenWith_of_decodePlain hplain (hj.symm.trans h)
  by_cases hfields : op ∈ [0x01, 0x02, 0x03, 0x05]
  · simp only [List.mem_cons, List.not_mem_nil, or_false] at hfields
    obtain rfl | rfl | rfl | rfl := hfields
    · exact writtenWith_of_decodeSeed1 h
    · exact writtenWith_of_decodeSeed2 h
    · exact writtenWith_of_decodeLoad h
    · cases h
      exact ⟨rfl, rfl, rfl⟩
  · cases (decodeFields_reserved hfields hplain ty len).symm.trans h

end

/-- Settles O10: the command is written with the word's fields, which with the zero reserved bits make up the word. -/
theorem legalWordsHaveOneMeaning : Obligations.LegalWordsHaveOneMeaning := by
  unfold Obligations.LegalWordsHaveOneMeaning
  intro v i h
  refine ⟨decode_wf h, ?_⟩
  rw [decode] at h
  split at h
  · rename_i hrsv
    obtain ⟨hop, hty, hlen⟩ := writtenWith_of_decodeFields h
    exact encode_eq_of_fields v i hrsv hop hty hlen
  · cases h

/-- Settles O12: each word's fields are numerals, so the decoder's rule is evaluated. -/
theorem specWordsDecodeAsListed : Obligations.SpecWordsDecodeAsListed := by
  unfold Obligations.SpecWordsDecodeAsListed
  decide

/-! ### The assembler (R79) -/

/-- A number's spelling is read back. -/
theorem numberOfName_numberName (k : BitVec 4) : numberOfName (numberName k) = some k := by
  revert k
  decide

/-- An engine's name is read back. -/
theorem engineOfName_name (e : Engine) : engineOfName e.name = some e := by
  cases e <;> decide

/-- A tag's spelling, by name or by number, is read back. -/
theorem tagOfName_tagName (tag : BitVec 4) : tagOfName (tagName tag) = some tag := by
  revert tag
  decide

/-- A `RESTORE` line with legible operands is that command. -/
theorem assemble_restore {tag len : String} {t l : BitVec 4} (ht : tagOfName tag = some t)
    (hl : numberOfName len = some l) : assemble "RESTORE" [tag, len] = some (.restore t l) := by
  simp only [assemble, ht, hl, if_true]

/-- A command's own line is read back. -/
theorem assemble_asm {i : Instr} (hwf : i.wf = true) : assemble i.asm.1 i.asm.2 = some i := by
  cases i with
  | seed1 e => cases e <;> decide
  | seed2 e =>
    cases e with
    | l64x128mix => cases hwf
    | _ => decide
  | restore tag len => exact assemble_restore (tagOfName_tagName tag) (numberOfName_numberName len)
  | load | save | size | nextw | next32 | next64 | bnd32 | bnd64 => decide

/-- Settles O13: names and numbers are read back, and the seven lines are evaluated. -/
theorem assemblerReadsItsOwnSyntax : Obligations.AssemblerReadsItsOwnSyntax := by
  unfold Obligations.AssemblerReadsItsOwnSyntax
  exact ⟨fun i hwf => assemble_asm hwf, by decide, by decide, by decide, by decide, by decide, by decide, by decide,
    by decide⟩

end Sys2Proof

/-! # The other family, the functions of words: the updates (R163, R183), the mixers (R108, R182), the constructions
(R165 to R167, R185 to R187), the PCG snapshot (R148) -/

namespace Sys2Proof.Machine

/-! ### The updates (R163, R183) -/

/-- Bit `j` of both words of the update: the sum of the words, beside a rotation and a shift of it. -/
theorem getLsbD_xorRotUpdate {a b c j : Nat} (ha : a < 64) (hc : c < 64) (hj : j < 64) (x0 x1 : Word) :
    (xorRotUpdate a b c x0 x1).1.getLsbD j =
      (x0.getLsbD ((j + (64 - a)) % 64) ^^ (x1.getLsbD j ^^ x0.getLsbD j) ^^
        (decide (b ≤ j) && (x1.getLsbD (j - b) ^^ x0.getLsbD (j - b)))) ∧
    (xorRotUpdate a b c x0 x1).2.getLsbD j =
      (x1.getLsbD ((j + (64 - c)) % 64) ^^ x0.getLsbD ((j + (64 - c)) % 64)) := by
  have hshift : (!decide (j < b)) = decide (b ≤ j) := by rw [← decide_not, decide_eq_decide, not_lt]
  simp only [xorRotUpdate, BitVec.getLsbD_xor, getLsbD_rotateLeft64 _ _ _ ha, getLsbD_rotateLeft64 _ _ _ hc,
    BitVec.getLsbD_shiftLeft, hj, hshift, decide_true, Bool.true_and, and_self]

/-- An injective map of a pair of words is a bijection. -/
theorem xorRotUpdate_bijective {a c : Nat} (b : Nat) (ha : a < 64) (hc : c < 64) :
    Function.Bijective (fun x : Word × Word => xorRotUpdate a b c x.1 x.2) :=
  Finite.injective_iff_bijective.mp (xorRotUpdate_injective a b c ha hc)

/-- Settles O43: the update with rotations 49 and 28 and shift 21. -/
theorem xrsUpdateIsTheStatedBijection : Obligations.XrsUpdateIsTheStatedBijection := by
  unfold Obligations.XrsUpdateIsTheStatedBijection
  exact ⟨fun x0 x1 j hj => getLsbD_xorRotUpdate (by decide) (by decide) hj x0 x1,
    xorRotUpdate_bijective 21 (by decide) (by decide), xorRotUpdate_zero 49 21 28 (by decide) (by decide)⟩

/-- Settles O44: the update with rotations 24 and 37 and shift 16. -/
theorem xbgUpdateIsTheStatedBijection : Obligations.XbgUpdateIsTheStatedBijection := by
  unfold Obligations.XbgUpdateIsTheStatedBijection
  exact ⟨fun x0 x1 j hj => getLsbD_xorRotUpdate (by decide) (by decide) hj x0 x1,
    xorRotUpdate_bijective 16 (by decide) (by decide), xorRotUpdate_zero 24 16 37 (by decide) (by decide)⟩

/-! ### The mixers (R108, R182) -/

theorem rrmxmx_eq_zero_iff (v : Word) : rrmxmx v = 0 ↔ v = 0 :=
  rrmxmx_injective.eq_iff' rrmxmx_zero

theorem stafford13_eq_zero_iff (v : Word) : stafford13 v = 0 ↔ v = 0 :=
  stafford13_injective.eq_iff' stafford13_zero

/-- Settles O47: an injective function on words is a bijection, and each mixer maps 0 to 0. -/
theorem seedMixersAreBijectionsFixingZero : Obligations.SeedMixersAreBijectionsFixingZero := by
  unfold Obligations.SeedMixersAreBijectionsFixingZero
  exact ⟨Finite.injective_iff_bijective.mp rrmxmx_injective, Finite.injective_iff_bijective.mp stafford13_injective,
    rrmxmx_eq_zero_iff, stafford13_eq_zero_iff⟩

/-- Settles O48: an injective function on words is a bijection, and the two values are evaluated. -/
theorem outputMixerIsABijection : Obligations.OutputMixerIsABijection := by
  unfold Obligations.OutputMixerIsABijection
  exact ⟨Finite.injective_iff_bijective.mp lea64_injective, by decide, by decide⟩

/-! ### The constructions (R165 to R167, R185 to R187) -/

theorem xrsSeed1_ne_zero (seed : Word) : ¬((xrsSeed1 seed).w0 = 0 ∧ (xrsSeed1 seed).w1 = 0) :=
  mixedPair_ne_zero rrmxmx_injective rrmxmx_zero seed

/-- The pair the mixers would send to zero is the one sent to the single-seed path (R167). -/
theorem xrsSeed2_ne_zero (a b : Word) : ¬((xrsSeed2 a b).w0 = 0 ∧ (xrsSeed2 a b).w1 = 0) := by
  rw [xrsSeed2_eq]
  split
  · exact xrsSeed1_ne_zero 0
  · rename_i hseeds
    rintro ⟨h0, h1⟩
    exact hseeds (.inr ⟨(rrmxmx_add_eq_zero_iff a golden).mp h0, (rrmxmx_add_eq_zero_iff b golden2).mp h1⟩)

theorem lxmSub_ne_zero (s : Word) : ¬((lxmSub s).1 = 0 ∧ (lxmSub s).2 = 0) :=
  mixedPair_ne_zero stafford13_injective stafford13_zero s

/-- Forcing bit 0 makes a word odd (R146, R186, R187). -/
theorem getLsbD_or_one_zero (x : Word) : (x ||| 1).getLsbD 0 = true := by
  simp

theorem engineOk_lxmLoad (v : Words4) : EngineOk (some .l64x128mix) (lxmLoad v) := by
  rw [engineOk_lxm]
  by_cases hzero : v.w2 = 0 ∧ v.w3 = 0
  · rw [lxmLoad_zero hzero]
    exact ⟨lxmSub_ne_zero v.w1, getLsbD_or_one_zero v.w0⟩
  · rw [lxmLoad_nonzero hzero]
    exact ⟨hzero, getLsbD_or_one_zero v.w0⟩

theorem engineOk_lxmSeed1 (seed : Word) : EngineOk (some .l64x128mix) (lxmSeed1 seed) :=
  (engineOk_lxm _).mpr ⟨lxmSub_ne_zero seed, getLsbD_or_one_zero (rrmxmx seed)⟩

/-- Settles O49: each sub-state is a pair of mixed words, or was tested for zero, and each addend has bit 0 set. -/
theorem seedingNeverGivesAZeroSubState : Obligations.SeedingNeverGivesAZeroSubState := by
  unfold Obligations.SeedingNeverGivesAZeroSubState
  exact ⟨xrsSeed1_ne_zero, xrsSeed2_ne_zero, fun s => mt Prod.mk.inj (lxmSub_ne_zero s), engineOk_lxmLoad,
    engineOk_lxmSeed1⟩

/-! ### The PCG snapshot (R147, R148) -/

/-- The shift of the restore drops bit 63 (R148). -/
theorem xor_top_shiftLeft_one (b : Word) : (b ^^^ 0x8000000000000000) <<< 1 = b <<< 1 := by
  have htop : (0x8000000000000000 : Word) <<< 1 = 0 := by decide
  rw [BitVec.shiftLeft_xor_distrib, htop]
  exact BitVec.xor_zero

/-- An odd word is its half, doubled, plus 1. -/
theorem half_shiftLeft_or_one {x : Word} (h : x.getLsbD 0 = true) : ((x >>> 1) <<< 1) ||| 1 = x := by
  apply BitVec.eq_of_getLsbD_eq
  intro j hj
  cases j with
  | zero => simp [h]
  | succ j => simp [hj, Nat.add_comm 1 j]

theorem pcgRestore_pcgSave {e : Engine} (he : width e = 32) {w : Words4} (h : EngineOk (some e) w) :
    pcgRestore (pcgSave w) = w := by
  obtain ⟨hodd, h2, h3⟩ := (engineOk_pcg w e he).mp h
  rw [pcgRestore, pcgSave, half_shiftLeft_or_one hodd]
  exact (congrArg₂ (Words4.mk w.w0 w.w1) h2 h3).symm

/-- Settles O42: a restore doubles the second word and adds 1, and every valid increment is odd. -/
theorem pcgRestoreUndoesSave : Obligations.PcgRestoreUndoesSave := by
  unfold Obligations.PcgRestoreUndoesSave
  refine ⟨fun v => ⟨congrArg some (pcgRestore_eq v), congrArg some (pcgRestore_eq v)⟩, fun a b => ?_,
    fun w h => pcgRestore_pcgSave rfl h⟩
  rw [pcgRestore, pcgRestore, xor_top_shiftLeft_one]

/-! ### The round trip (R208) -/

/-- A valid state passes its engine's content check and comes back (R148, R169, R190). -/
theorem restoreWords_snapshotWords {e : Engine} {w : Words4} (h : EngineOk (some e) w) :
    restoreWords e (snapshotWords e w) = some w := by
  cases e with
  | pcgXshRr32 => exact congrArg some (pcgRestore_pcgSave rfl h)
  | pcgXshRs32 => exact congrArg some (pcgRestore_pcgSave rfl h)
  | xrs128pp =>
    obtain ⟨hnz, h2, h3⟩ := (engineOk_xrs w).mp h
    refine (if_neg hnz).trans (congrArg some ?_)
    exact (congrArg₂ (Words4.mk w.w0 w.w1) h2 h3).symm
  | l64x128mix =>
    obtain ⟨hnz, hodd⟩ := (engineOk_lxm w).mp h
    exact (if_neg hnz).trans (if_neg (Bool.not_eq_false _ ▸ hodd))

/-- An engine's own tag and length pass the check of R210. -/
theorem tagAndLengthOk_self (e : Engine) : tagAndLengthOk e e.code (stateSize e) = true := by
  cases e <;> decide

/-- Settles O37: the results are the snapshot, whose tag, length and content a restore on that engine accepts. -/
theorem saveThenRestoreResumesTheEngine : Obligations.SaveThenRestoreResumesTheEngine := by
  unfold Obligations.SaveThenRestoreResumesTheEngine
  intro s e ⟨hengine, _⟩ he
  rw [he] at hengine
  refine ⟨_, execSave_some he, fun u hu hue hargs => ?_⟩
  rw [complete_res, assignRes_all] at hargs
  have hwords : restoreWords e (snapshotOperands u) = some s.w := by
    rw [snapshotOperands, hargs, restoreWords_snapshotWords hengine]
  exact ⟨_, execRestore_ok hue (tagAndLengthOk_self e) hwords,
    completed_undrawn hu ⟨rfl, rfl, rfl, rfl, rfl, rfl, rfl⟩ rfl [], hue.trans he.symm, rfl⟩

end Sys2Proof.Machine

/-! # The other family, the bounded commands (`41_bounded.md`): the modulo scheme (R121), the range of the results (R129),
the draw count (R125), and a candidate that is accepted (R282) -/

namespace Sys2Proof.Machine

/-! ### The modulo scheme in exact arithmetic (R121) -/

/-- The largest multiple of the limit within the range bounds the candidates whose whole block of the limit's length lies
within it. -/
theorem block_le_iff_lt_largestMultiple {h l p : Nat} (hl : 0 < l) :
    h / l * l + l ≤ p ↔ h < p / l * l := by
  rw [← Nat.succ_mul, ← Nat.le_div_iff_mul_le hl, Nat.succ_le_iff, Nat.div_lt_iff_lt_mul hl]

/-- A positive limit is below the sign bit. -/
theorem toNat_lt_of_toInt_pos {n : Nat} {l : BitVec (n + 1)} (h : 0 < l.toInt) : l.toNat < 2 ^ n := by
  have hlt := l.isLt
  rw [BitVec.toInt_eq_toNat_cond] at h
  split at h <;> omega

/-- The sum that R121 tests for its sign is the end of the candidate's block, less 1, and does not wrap. -/
theorem modAccept_sum_toNat {n : Nat} (c : BitVec (n + 1)) {l : BitVec (n + 1)} (hl : 0 < l.toInt) :
    ((c >>> 1) - (c >>> 1) % l + (l - 1)).toNat = c.toNat / 2 / l.toNat * l.toNat + (l.toNat - 1) := by
  have hpos := toNat_pos_of_toInt_pos hl
  have hlt := toNat_lt_of_toInt_pos hl
  have hhalf : (c >>> 1).toNat = c.toNat / 2 := by
    rw [BitVec.toNat_ushiftRight, Nat.shiftRight_eq_div_pow, pow_one]
  have hone : (1 : BitVec (n + 1)).toNat = 1 := BitVec.toNat_one (Nat.succ_pos n)
  have hblock := Nat.div_add_mod' (c.toNat / 2) l.toNat
  have hc := c.isLt
  rw [BitVec.toNat_add, BitVec.toNat_sub_of_le (BitVec.le_def.mpr (by rw [BitVec.toNat_umod]; exact Nat.mod_le _ _)),
    BitVec.toNat_sub_of_le (BitVec.le_def.mpr (by omega)), BitVec.toNat_umod, hhalf, hone]
  rw [Nat.mod_eq_of_lt] <;> omega

/-- The modulo scheme in exact arithmetic, at any width. -/
theorem modAccept_eq {n : Nat} (c : BitVec (n + 1)) {l : BitVec (n + 1)} (hl : 0 < l.toInt) :
    modAccept c l = if c.toNat / 2 < 2 ^ n / l.toNat * l.toNat
      then some (BitVec.ofNat (n + 1) (c.toNat / 2 % l.toNat)) else none := by
  have hpos := toNat_pos_of_toInt_pos hl
  have hval : (c >>> 1) % l = BitVec.ofNat (n + 1) (c.toNat / 2 % l.toNat) := by
    rw [← BitVec.toNat_inj, BitVec.toNat_umod, BitVec.toNat_ushiftRight, Nat.shiftRight_eq_div_pow, pow_one,
      BitVec.toNat_ofNat, Nat.mod_eq_of_lt ((Nat.mod_lt _ hpos).trans l.isLt)]
  have hsign : ((c >>> 1) - (c >>> 1) % l + (l - 1)).toInt < 0 ↔ ¬c.toNat / 2 < 2 ^ n / l.toNat * l.toNat := by
    have hsum := modAccept_sum_toNat c hl
    rw [← block_le_iff_lt_largestMultiple hpos, BitVec.toInt_neg_iff, hsum]
    omega
  simp only [modAccept, hsign, ite_not]
  rw [hval]

/-- Settles O24: the scheme at 32 and at 64 bits. -/
theorem moduloSchemeAcceptsBelowTheLargestMultiple : Obligations.ModuloSchemeAcceptsBelowTheLargestMultiple := by
  unfold Obligations.ModuloSchemeAcceptsBelowTheLargestMultiple
  exact ⟨fun c l hl => modAccept_eq c hl, fun c l hl => modAccept_eq c hl⟩

/-! ### A candidate that is accepted (R282) -/

/-- The candidate 0 lies below the largest multiple of every limit in the range. -/
theorem modAccept_zero {n : Nat} {l : BitVec (n + 1)} (hl : 0 < l.toInt) : modAccept 0 l = some 0 := by
  have hpos := toNat_pos_of_toInt_pos hl
  have hmultiple : 0 < 2 ^ n / l.toNat * l.toNat :=
    Nat.mul_pos (Nat.div_pos (toNat_lt_of_toInt_pos hl).le hpos) hpos
  have hzero : (0 : BitVec (n + 1)).toNat = 0 := BitVec.toNat_zero
  rw [modAccept_eq 0 hl, hzero, Nat.zero_div, if_pos hmultiple, Nat.zero_mod]
  rfl

/-- The product of the largest high half and a limit `l` ends in `2^32 - l`, which is no less than the threshold. -/
theorem lemireAccept_top {l : Half} (hl : 0 < l.toInt) : lemireAccept 0xFFFFFFFF00000000 l ≠ none := by
  have hpos := toNat_pos_of_toInt_pos hl
  have hlt := l.isLt
  have hhigh : (0xFFFFFFFF00000000 : Word).toNat / 2 ^ 32 = 2 ^ 32 - 1 := by decide
  have hproduct : (2 ^ 32 - 1) * l.toNat % 2 ^ 32 = 2 ^ 32 - l.toNat := by omega
  have hthreshold : 2 ^ 32 % l.toNat ≤ 2 ^ 32 - l.toNat := by
    rw [Nat.mod_eq_sub_mod hlt.le]
    exact Nat.mod_le _ _
  rw [lemireAccept_eq _ hpos, hhigh, hproduct, if_neg (not_lt.mpr hthreshold)]
  exact Option.some_ne_none _

/-- Settles O29: 0 is in range for the modulo scheme, and the top word's product is above Lemire's threshold. -/
theorem someCandidateIsAlwaysAccepted : Obligations.SomeCandidateIsAlwaysAccepted := by
  unfold Obligations.SomeCandidateIsAlwaysAccepted
  exact ⟨fun l hl => modAccept_zero hl, fun l hl => modAccept_zero hl, fun l hl => lemireAccept_top hl, by decide,
    by decide⟩

/-! ### The range of the results (R129) -/

/-- A masked candidate is at most `l - 1`, and a remainder is below `l`. -/
theorem generalAccept_lt {n : Nat} {c l v : BitVec (n + 1)} (hl : 0 < l.toInt) (h : generalAccept c l = some v) :
    v.toNat < l.toNat := by
  have hpos := toNat_pos_of_toInt_pos hl
  by_cases hpow : l &&& (l - 1) = 0
  · rw [generalAccept_pow2 hpow] at h
    cases h
    have hone : (1 : BitVec (n + 1)).toNat = 1 := BitVec.toNat_one (Nat.succ_pos n)
    have hmask : (l - 1).toNat = l.toNat - 1 := by
      rw [BitVec.toNat_sub_of_le (BitVec.le_def.mpr (by omega)), hone]
    have hle : (c &&& (l - 1)).toNat ≤ (l - 1).toNat := by
      rw [BitVec.toNat_and]
      exact Nat.and_le_right
    omega
  · rw [generalAccept_not_pow2 hpow, modAccept_eq c hl, Option.ite_none_right_eq_some] at h
    obtain ⟨-, hv⟩ := h
    cases hv
    exact (Nat.mod_le _ _).trans_lt (Nat.mod_lt _ hpos)

/-- The high half of a 32-bit number times the limit is below the limit. -/
theorem lemireAccept_lt {w : Word} {l v : Half} (hl : 0 < l.toInt) (h : lemireAccept w l = some v) :
    v.toNat < l.toNat := by
  have hpos := toNat_pos_of_toInt_pos hl
  rw [lemireAccept_eq w hpos, Option.ite_none_left_eq_some] at h
  obtain ⟨-, hv⟩ := h
  cases hv
  have hhigh : w.toNat / 2 ^ 32 < 2 ^ 32 := Nat.div_lt_of_lt_mul w.isLt
  refine (Nat.mod_le _ _).trans_lt (Nat.div_lt_of_lt_mul ?_)
  exact Nat.mul_lt_mul_of_pos_right hhigh hpos

theorem candidate32_lt {e : Engine} {s : State} {v : Half} (hl : 0 < (limit32 s).toInt)
    (h : candidate32 e s = some v) : v.toNat < (limit32 s).toNat := by
  rw [candidate32] at h
  split at h
  · exact generalAccept_lt hl h
  · exact lemireAccept_lt hl h

/-- A candidate's step that ends the command has accepted the value in `RES0`. -/
theorem endCandidate_accepted {v : Option Word} {s : State} (hbusy : s.busy = true)
    (hend : (endCandidate v s).busy = false) : v = some (endCandidate v s).res.w0 := by
  cases v with
  | some r => rfl
  | none => exact absurd hbusy (Bool.eq_false_iff.mp hend)

/-- Settles O27: a step that succeeds has accepted `RES0`, and each scheme accepts values below the limit alone. -/
theorem boundedResultsAreBelowTheLimit : Obligations.BoundedResultsAreBelowTheLimit := by
  unfold Obligations.BoundedResultsAreBelowTheLimit
  intro s t e hbusy he hend _
  constructor
  · intro h hl
    rw [exec, execBnd32_candidate he (.inr (badLimit_of_pos hl))] at h
    cases h
    obtain ⟨v, hv, hres⟩ := Option.map_eq_some_iff.mp (endCandidate_accepted (s := afterDraw e s) hbusy hend)
    rw [← hres, BitVec.toNat_setWidth_of_le (by decide)]
    exact candidate32_lt hl hv
  · intro h hl
    rw [exec, execBnd64_candidate he (.inr (badLimit_of_pos hl))] at h
    cases h
    have hv := endCandidate_accepted ((afterDraw64_busy e s).trans hbusy) hend
    exact generalAccept_lt hl hv

/-! ### The draw count of BND64 on a PCG engine (R125) -/

/-- Two draws keep the count's parity. -/
theorem getLsbD_add_two_zero (n : Word) : (n + 2).getLsbD 0 = n.getLsbD 0 := by
  rw [BitVec.getLsbD_add (by decide)]
  simp

/-- In a first step the limit is checked: it is not valid, or it is, or the step is a later one (R124, R125). -/
theorem limitCheck_cases {n : Nat} (first : Bool) (l : BitVec n) :
    (first = true ∧ l.toInt ≤ 0) ∨ (first = false ∨ 0 < l.toInt) := by
  cases first with
  | false => exact .inr (.inl rfl)
  | true => exact (le_or_gt l.toInt 0).imp (⟨rfl, ·⟩) .inr

/-- Settles O28: an error leaves `CNT` = 0, and a candidate's step, accepted or rejected, adds two draws. -/
theorem bnd64OnPcgDrawsInPairs : Obligations.Bnd64OnPcgDrawsInPairs := by
  unfold Obligations.Bnd64OnPcgDrawsInPairs
  intro s t e hbusy he hwidth heven h
  obtain ⟨hfirst, hl⟩ | hpass := limitCheck_cases s.latch.first (limit64 s)
  · rw [exec, execBnd64_bad he hfirst (badLimit_of_nonpos hl)] at h
    cases h
    exact ⟨nofun, fun _ => BitVec.getLsbD_zero⟩
  · rw [exec, execBnd64_candidate he (hpass.imp_right badLimit_of_pos)] at h
    cases h
    have hcount : (afterDraw64 e s).latch.n.getLsbD 0 = false := by
      rw [afterDraw64_latch_n, drawsOf64, if_pos hwidth, getLsbD_add_two_zero, heven]
    cases candidate64 e s with
    | none => exact ⟨fun _ => hcount, fun hend => absurd hend (by simp [hbusy])⟩
    | some v => exact ⟨nofun, fun _ => hcount⟩

end Sys2Proof.Machine

/-! # The other family, the steps: what a step can do, and what an engine step leaves alone (R7, R35 to R37, R64) -/

namespace Sys2Proof.Machine

/-! ### Every command has a next state (R35) -/

theorem whenConfigured_next (s : State) (rule : Engine → State → State) : ∃ t, whenConfigured s rule = .next t := by
  cases he : s.type with
  | none => exact ⟨_, whenConfigured_none s rule he⟩
  | some e => exact ⟨_, whenConfigured_some s rule e he⟩

/-- The reserved pair, the one command with no encoding, is an error completion (R188, R201). -/
theorem exec_notWf {i : Instr} (hwf : i.wf = false) (s : State) : exec i s = .next (raiseError .illegalCommand s) := by
  cases i with
  | seed2 e =>
    obtain rfl : e = .l64x128mix := by simpa [Instr.wf] using hwf
    exact execSeed2_none (ty := .l64x128mix) rfl
  | _ => cases hwf

/-- No command stops the machine. -/
theorem exec_next (i : Instr) (s : State) : ∃ t, exec i s = .next t := by
  cases hc : configuring i with
  | false =>
    obtain ⟨rule, hrule⟩ := exec_whenConfigured i hc
    rw [hrule]
    exact whenConfigured_next s rule
  | true =>
    cases hwf : i.wf with
    | true =>
      obtain ⟨e, words, -, hexec⟩ := exec_configure hc hwf
      exact ⟨_, hexec s⟩
    | false => exact ⟨_, exec_notWf hwf s⟩

theorem engineStep_next (s : State) : ∃ t, engineStep s = .next t := by
  cases hdecode : decode s.latch.cmd with
  | illegal r => exact ⟨_, engineStep_illegal hdecode⟩
  | ok i => rw [engineStep_ok hdecode]; exact exec_next i s

/-! ### The turns (R7) -/

theorem hostTurn_cons {s : State} {op : HostOp} {rest : List HostOp} (h : s.host = op :: rest) :
    hostTurn s = hostOp op rest s := by
  rw [hostTurn, h]

theorem hostTurn_nil {s : State} (h : s.host = []) : hostTurn s = .next s := by
  rw [hostTurn, h]

theorem engineTurn_busy {s : State} (h : s.busy = true) : engineTurn s = engineStep s := if_pos h

theorem engineTurn_idle {s : State} (h : s.busy = false) : engineTurn s = .next s := by
  rw [engineTurn, h]
  rfl

/-- Where the schedule is empty a running command goes first (log entry 6). -/
theorem step_of_turns_nil_busy {s : State} (h : s.turns = []) (hbusy : s.busy = true) : step s = engineStep s := by
  rw [step, transition, h]
  simp only [fairTurn, hbusy, if_true, takeTurn, engineTurn_busy]

/-- Where the schedule is empty and no command runs the host moves (log entry 6). -/
theorem step_of_turns_nil_idle {s : State} (h : s.turns = []) (hidle : s.busy = false) : step s = hostTurn s := by
  rw [step, transition, h]
  simp only [fairTurn, hidle, Bool.false_eq_true, if_false, takeTurn]

theorem step_of_turns_host {s : State} {later : List Turn} (h : s.turns = .host :: later) :
    step s = hostTurn { s with turns := later } :=
  step_of_turns_cons h

theorem step_of_turns_engine {s : State} {later : List Turn} (h : s.turns = .engine :: later) :
    step s = engineTurn { s with turns := later } :=
  step_of_turns_cons h

/-- Settles O14: a turn of the engine is its step while busy, and the fair choice while busy is the engine. -/
theorem stepRunsTheLatchedCommand : Obligations.StepRunsTheLatchedCommand := by
  unfold Obligations.StepRunsTheLatchedCommand
  intro s i
  refine ⟨fun hbusy hdecode _ => ⟨fun hnil => ?_, fun rest hcons => ?_⟩, fun hidle rest hcons => ?_⟩
  · rw [step_of_turns_nil_busy hnil hbusy, engineStep_ok hdecode]
  · have hturn : engineTurn { s with turns := rest } = engineStep { s with turns := rest } := engineTurn_busy hbusy
    rw [step_of_turns_engine hcons, hturn]
    exact engineStep_ok hdecode
  · rw [step_of_turns_engine hcons]
    exact engineTurn_idle hidle

/-- Settles O59: the fair choice falls on a host with nothing left. -/
theorem idleBlockHoldsAllState : Obligations.IdleBlockHoldsAllState := by
  unfold Obligations.IdleBlockHoldsAllState
  intro s ⟨hhost, hidle⟩ hturns
  rw [step_of_turns_nil_idle hturns hidle, hostTurn_nil hhost]

/-- Settles O60, by the `BUSY` the wait reads. -/
theorem waitEndsExactlyWhenIdle : Obligations.WaitEndsExactlyWhenIdle := by
  unfold Obligations.WaitEndsExactlyWhenIdle
  intro s rest h
  rw [hostTurn_cons h, hostOp]
  exact ⟨fun hbusy => congrArg _ (hostWait_busy rest s hbusy), fun hidle => congrArg _ (hostWait_idle rest s hidle)⟩

/-! ### The host's accesses (R51) -/

/-- The operation is a bus access, a read or a write, of this width at this offset. -/
def IsAccess (op : HostOp) (off width : Nat) : Prop := op = .rd off width ∨ ∃ v, op = .wr off width v

section
variable {op : HostOp} {off width : Nat} (rest : List HostOp) (s : State)

theorem hostOp_refused (h : IsAccess op off width) (ht : target off width = .refused) :
    hostOp op rest s = .fault (.accessRefused off width) := by
  obtain rfl | ⟨v, rfl⟩ := h <;> simp only [hostOp, ht]

theorem hostOp_elsewhere (h : IsAccess op off width) (ht : target off width = .elsewhere) :
    hostOp op rest s = .refused (.accessElsewhere off width) := by
  obtain rfl | ⟨v, rfl⟩ := h <;> simp only [hostOp, ht]

theorem hostOp_reg {r : Reg} (h : IsAccess op off width) (ht : target off width = .reg r) :
    ∃ t, hostOp op rest s = .next t := by
  obtain rfl | ⟨v, rfl⟩ := h <;> simp only [hostOp, ht] <;> exact ⟨_, rfl⟩

end

theorem definedAccess_iff (off width : Nat) :
    definedAccess off width = true ↔ width = 8 ∧ off % 8 = 0 ∧ off < Config.regSpace := by
  simp only [definedAccess, Bool.and_eq_true, decide_eq_true_eq, and_assoc]

/-- A defined access lands on a register (R51). -/
theorem target_of_definedAccess {off width : Nat} (h : definedAccess off width = true) :
    ∃ r, target off width = .reg r := by
  obtain ⟨hwidth, halign, hlt⟩ := (definedAccess_iff off width).mp h
  obtain ⟨r, hr⟩ := exists_regOffset_eq halign hlt
  exact ⟨r, (target_eq_reg off width r).mpr ⟨hwidth, hr⟩⟩

/-- Settles O6, by where the access lands: refused, elsewhere, or on a register. -/
theorem undefinedAccessesHaveNoStep : Obligations.UndefinedAccessesHaveNoStep := by
  unfold Obligations.UndefinedAccessesHaveNoStep
  intro s later off width v rest hturns hhost
  obtain ⟨op, hop, haccess⟩ : ∃ op, s.host = op :: rest ∧ IsAccess op off width := by
    obtain h | h := hhost
    · exact ⟨_, h, .inl rfl⟩
    · exact ⟨_, h, .inr ⟨v, rfl⟩⟩
  have hstep : step s = hostOp op rest { s with turns := later } := by
    rw [step_of_turns_host hturns]
    exact hostTurn_cons hop
  rw [hstep]
  refine ⟨fun hlt hundefined => ?_, fun hge => ?_, fun hlt hwidth halign => ?_⟩
  · refine hostOp_refused rest _ haccess ((target_eq_refused off width).mpr ⟨hlt, ?_⟩)
    rw [← Bool.not_eq_true, definedAccess_iff]
    exact fun ⟨hwidth, halign, _⟩ => hundefined ⟨hwidth, halign⟩
  · exact hostOp_elsewhere rest _ haccess ((target_eq_elsewhere off width).mpr hge)
  · obtain ⟨r, hr⟩ := target_of_definedAccess ((definedAccess_iff off width).mpr ⟨hwidth, halign, hlt⟩)
    exact hostOp_reg rest _ haccess hr

/-- A host operation the block defines has a next state (R51, R81). -/
theorem hostOp_next {op : HostOp} (h : op.wf = true) (rest : List HostOp) (s : State) :
    ∃ t, hostOp op rest s = .next t := by
  cases op with
  | rd off width =>
    obtain ⟨r, hr⟩ := target_of_definedAccess h
    exact hostOp_reg rest s (.inl rfl) hr
  | wr off width v =>
    obtain ⟨r, hr⟩ := target_of_definedAccess h
    exact hostOp_reg rest s (.inr ⟨v, rfl⟩) hr
  | wait => exact ⟨_, rfl⟩

/-- A turn has a next state unless it is the host's and the next access is not defined. -/
theorem takeTurn_next (k : Turn) {s : State} (h : ∀ op ∈ s.host.head?, op.wf = true) :
    ∃ t, takeTurn k s = .next t := by
  cases k with
  | host =>
    cases hhost : s.host with
    | nil => exact ⟨_, hostTurn_nil hhost⟩
    | cons op rest =>
      rw [takeTurn, hostTurn_cons hhost]
      exact hostOp_next (h op (by rw [hhost]; rfl)) rest s
  | engine =>
    cases hbusy : s.busy with
    | true => rw [takeTurn, engineTurn_busy hbusy]; exact engineStep_next s
    | false => exact ⟨_, engineTurn_idle hbusy⟩
  | reset => exact ⟨_, rfl⟩

/-- Settles O52: only a host operation can stop, and a defined one does not. -/
theorem onlyUndefinedAccessesStopTheMachine : Obligations.OnlyUndefinedAccessesStopTheMachine := by
  unfold Obligations.OnlyUndefinedAccessesStopTheMachine
  refine ⟨exec_next, fun s h => ?_⟩
  obtain ⟨-, hstep⟩ | ⟨k, later, -, hstep⟩ := step_turn s
  · rw [hstep]
    exact takeTurn_next _ h
  · rw [hstep]
    exact takeTurn_next k h

/-! ### Everything a step can answer -/

/-- The agents' record has moved on, and the block has not: a turn with nothing to do, a host read, a `wait`. -/
def RecordMoved (s t : State) : Prop :=
  ∃ later ops log, t = { s with turns := later, host := ops, reads := log }

/-- A step with a next state moves the agents' record alone, or is the host's write of a register, or the engine's
step, or the reset input. -/
theorem step_cases {s t : State} (h : step s = .next t) :
    RecordMoved s t ∨
      (∃ later rest r v, s.host = .wr (regOffset r) 8 v :: rest ∧
        t = writeReg r v { s with turns := later, host := rest }) ∨
      (∃ later, s.busy = true ∧ engineStep { s with turns := later } = .next t) ∨
      (∃ later, s.turns.head? = some .reset ∧ t = resetBlock { s with turns := later }) := by
  obtain ⟨k, later, hstep, hreset⟩ : ∃ k later, takeTurn k { s with turns := later } = .next t ∧
      (k = .reset → s.turns.head? = some .reset) := by
    obtain ⟨-, hstep⟩ | ⟨k, later, hturns, hstep⟩ := step_turn s
    · refine ⟨fairTurn s, s.turns, hstep.symm.trans h, ?_⟩
      rw [fairTurn]
      split <;> nofun
    · exact ⟨k, later, hstep.symm.trans h, fun hk => by rw [hturns, hk]; rfl⟩
  obtain ⟨-, -, rfl⟩ | ⟨-, op, rest, hop, hhost⟩ | ⟨-, -, rfl⟩ | ⟨-, hbusy, hengine⟩ | ⟨hk, rfl⟩ :=
    takeTurn_cases hstep
  · exact .inl ⟨later, s.host, s.reads, rfl⟩
  · obtain ⟨r, rfl⟩ | ⟨r, v, rfl, rfl⟩ | ⟨-, rfl⟩ := hostOp_cases hhost
    · exact .inl ⟨later, rest, _, rfl⟩
    · exact .inr (.inl ⟨later, rest, r, v, hop, rfl⟩)
    · obtain hwait | hwait := hostWait_cases rest { s with turns := later }
      · exact .inl ⟨later, s.host, s.reads, hwait⟩
      · exact .inl ⟨later, rest, s.reads, hwait⟩
  · exact .inl ⟨later, s.host, s.reads, rfl⟩
  · exact .inr (.inr (.inl ⟨later, hbusy, hengine⟩))
  · exact .inr (.inr (.inr ⟨later, hreset hk, rfl⟩))

/-! ### What an engine step leaves alone (R22, R33, R244) -/

theorem sameOutside_exec {i : Instr} {s t : State} (h : exec i s = .next t) : SameOutside s t := by
  obtain ⟨c, -, rfl⟩ | ⟨r, s', rfl, hout, -⟩ | ⟨-, e, -, rfl | rfl⟩ := exec_cases h
  · exact sameOutside_refl s
  · exact hout
  · exact sameOutside_afterDraw e s
  · exact sameOutside_afterDraw64 e s

theorem sameOutside_engineStep {s t : State} (h : engineStep s = .next t) : SameOutside s t := by
  obtain ⟨r, -, rfl⟩ | ⟨i, -, hexec⟩ := engineStep_cases h
  · exact sameOutside_refl s
  · exact sameOutside_exec hexec

/-- A register write lowers `OVR` only by a 1 written to its bit of `STATUS` (R26, R36). -/
theorem writeReg_clears_ovr {r : Reg} {v : Word} {s : State} (hovr : s.ovr = true)
    (h : (writeReg r v s).ovr = false) : r = .status ∧ v.getLsbD 2 = true := by
  cases r with
  | status => exact ⟨rfl, by simpa [writeReg, hovr] using h⟩
  | cmd =>
    rw [writeReg, writeCmd] at h
    split at h
    · cases h
    · exact absurd hovr (Bool.eq_false_iff.mp h)
  | _ => exact absurd hovr (Bool.eq_false_iff.mp h)

/-- Settles O8: an engine step leaves `OVR`, and of the register writes one to `STATUS` alone clears it. -/
theorem overrunIsSticky : Obligations.OverrunIsSticky := by
  unfold Obligations.OverrunIsSticky
  intro s t h hovr hclear
  obtain ⟨later, ops, log, rfl⟩ | ⟨later, rest, r, v, hhost, rfl⟩ | ⟨later, -, hengine⟩ | ⟨later, hreset, -⟩ :=
    step_cases h
  · exact absurd hovr (Bool.eq_false_iff.mp hclear)
  · obtain ⟨rfl, hbit⟩ := writeReg_clears_ovr (s := { s with turns := later, host := rest }) hovr hclear
    exact .inr ⟨v, rest, hhost, hbit⟩
  · obtain ⟨-, -, hkeep, -⟩ := sameOutside_engineStep hengine
    exact absurd (hkeep.trans hovr) (Bool.eq_false_iff.mp hclear)
  · exact .inl hreset

/-- Settles O18: a command that needs an engine and has none is the error completion. -/
theorem unconfiguredCommandsReportIt : Obligations.UnconfiguredCommandsReportIt := by
  unfold Obligations.UnconfiguredCommandsReportIt
  exact fun i s hi hnone => exec_unconfigured_failed hi hnone

/-- Settles O15: a completion clears `BUSY` and sets `DONE`, and a candidate's step goes on with its latch. -/
theorem onlyBoundedCommandsTakeMoreSteps : Obligations.OnlyBoundedCommandsTakeMoreSteps := by
  unfold Obligations.OnlyBoundedCommandsTakeMoreSteps
  intro i s hbusy
  obtain ⟨t, h⟩ := exec_next i s
  refine ⟨t, h, ?_⟩
  obtain ⟨c, -, rfl⟩ | ⟨r, s', rfl, -⟩ | ⟨hbounded, e, -, ht⟩ := exec_cases h
  · exact ⟨fun _ => rfl, fun _ => rfl, nofun⟩
  · exact ⟨fun _ => rfl, fun _ => rfl, nofun⟩
  · obtain ⟨draws, hgo⟩ : ∃ draws, WentOn s t draws := by
      obtain rfl | rfl := ht
      · exact ⟨_, wentOn_afterDraw e s⟩
      · exact ⟨_, wentOn_afterDraw64 e s⟩
    obtain ⟨hb, -, -, -, -, -, hcmd, hargs, hfirst, -⟩ := hgo
    exact ⟨fun h => absurd hbounded (Bool.eq_false_iff.mp h),
      fun hend => absurd (hb.trans hbusy) (Bool.eq_false_iff.mp hend), fun _ => ⟨hfirst, hcmd, hargs⟩⟩

/-! ### The results (R23) -/

/-- An engine step that changes the results completes a command successfully. -/
theorem engineStep_changes_res {s t : State} (h : engineStep s = .next t) (hres : t.res ≠ s.res) :
    t.busy = false ∧ t.done = true ∧ t.err = .ok := by
  obtain ⟨r, -, rfl⟩ | ⟨i, -, hexec⟩ := engineStep_cases h
  · exact absurd rfl hres
  obtain ⟨c, -, rfl⟩ | ⟨r, s', rfl, -⟩ | ⟨-, e, -, rfl | rfl⟩ := exec_cases hexec
  · exact absurd rfl hres
  · exact ⟨rfl, rfl, rfl⟩
  · exact absurd rfl hres
  · exact absurd (afterDraw64_res e s) hres

/-- Settles O53: no register write reaches the results, and an engine step that does completes. -/
theorem resultsChangeOnlyOnSuccess : Obligations.ResultsChangeOnlyOnSuccess := by
  unfold Obligations.ResultsChangeOnlyOnSuccess
  intro s t h hres
  obtain ⟨later, ops, log, rfl⟩ | ⟨later, rest, r, v, -, rfl⟩ | ⟨later, hbusy, hengine⟩ | ⟨later, hreset, -⟩ :=
    step_cases h
  · exact absurd rfl hres
  · obtain ⟨hkeep, -⟩ := writeReg_engine r v { s with turns := later, host := rest }
    exact absurd hkeep hres
  · exact .inr ⟨hbusy, engineStep_changes_res hengine hres⟩
  · exact .inl hreset

end Sys2Proof.Machine

/-! # The other family, the invariant (`10_state.md` R31, R34 to R38; `41_bounded.md` R126) -/

namespace Sys2Proof.Machine

/-! ### The engine invariant of what a command installs (R31) -/

theorem engineOk_pcgSeed1 {e : Engine} (he : width e = 32) (d seed : Word) : EngineOk (some e) (pcgSeed1 d seed) :=
  (engineOk_pcg _ e he).mpr ⟨getLsbD_or_one_zero d, rfl, rfl⟩

theorem engineOk_pcgSeed2 {e : Engine} (he : width e = 32) (a b : Word) : EngineOk (some e) (pcgSeed2 a b) :=
  (engineOk_pcg _ e he).mpr ⟨getLsbD_or_one_zero (b <<< 1), rfl, rfl⟩

theorem engineOk_pcgRestore {e : Engine} (he : width e = 32) (v : Words4) : EngineOk (some e) (pcgRestore v) :=
  (engineOk_pcg _ e he).mpr ⟨getLsbD_or_one_zero (v.w1 <<< 1), rfl, rfl⟩

theorem engineOk_seedWords1 (d : Word) (e : Engine) (seed : Word) : EngineOk (some e) (seedWords1 d e seed) := by
  cases e with
  | pcgXshRr32 => exact engineOk_pcgSeed1 rfl d seed
  | pcgXshRs32 => exact engineOk_pcgSeed1 rfl d seed
  | xrs128pp => exact (engineOk_xrs _).mpr ⟨xrsSeed1_ne_zero seed, rfl, rfl⟩
  | l64x128mix => exact engineOk_lxmSeed1 seed

theorem engineOk_seedWords2 {e : Engine} {a b : Word} {w : Words4} (h : seedWords2 e a b = some w) :
    EngineOk (some e) w := by
  cases e with
  | pcgXshRr32 => cases h; exact engineOk_pcgSeed2 rfl a b
  | pcgXshRs32 => cases h; exact engineOk_pcgSeed2 rfl a b
  | xrs128pp => cases h; exact (engineOk_xrs _).mpr ⟨xrsSeed2_ne_zero a b, xrsSeed2_unused a b⟩
  | l64x128mix => cases h

/-- A restore installs no words but valid ones: the content check of R212 is what a 64-bit engine needs. -/
theorem engineOk_restoreWords {e : Engine} {v w : Words4} (h : restoreWords e v = some w) : EngineOk (some e) w := by
  have hcontent : ¬BadContent e v := mt (restoreWords_eq_none_iff e v).mpr (h ▸ Option.some_ne_none w)
  obtain ⟨-, hxrs, hlxm⟩ := restoreWords_eq_some h
  cases e with
  | pcgXshRr32 => cases h; exact engineOk_pcgRestore rfl v
  | pcgXshRs32 => cases h; exact engineOk_pcgRestore rfl v
  | xrs128pp =>
    rw [hxrs rfl]
    exact (engineOk_xrs _).mpr ⟨hcontent, rfl, rfl⟩
  | l64x128mix =>
    rw [hlxm rfl]
    obtain ⟨hnz, hodd⟩ := not_or.mp hcontent
    exact (engineOk_lxm v).mpr ⟨hnz, Bool.of_not_eq_false hodd⟩

/-! ### The engine invariant over a step (R31) -/

theorem engineOk_afterDraw {s : State} {e : Engine} (he : s.type = some e) (h : EngineOk s.type s.w) :
    EngineOk (afterDraw e s).type (afterDraw e s).w := by
  rw [he] at h
  rw [afterDraw_type, afterDraw_w, he]
  exact engineOk_nextWord e s.w h

theorem engineOk_afterDraw64 {s : State} {e : Engine} (he : s.type = some e) (h : EngineOk s.type s.w) :
    EngineOk (afterDraw64 e s).type (afterDraw64 e s).w := by
  by_cases hwidth : width e = 32
  · rw [afterDraw64_pcg e s hwidth]
    exact engineOk_afterDraw (s := afterDraw e s) he (engineOk_afterDraw he h)
  · rw [afterDraw64_wide e s hwidth]
    exact engineOk_afterDraw he h

/-- The NOT_CONFIGURED completion leaves the engine, so the rule of the configured engine is what can matter. -/
theorem engineOk_whenConfigured {s t : State} {rule : Engine → State → State} (hs : EngineOk s.type s.w)
    (h : whenConfigured s rule = .next t)
    (hrule : ∀ e, s.type = some e → EngineOk (rule e s).type (rule e s).w) : EngineOk t.type t.w := by
  obtain ⟨-, rfl⟩ | ⟨e, he, rfl⟩ := whenConfigured_cases h
  · exact hs
  · exact hrule e he

/-- Every command keeps the engine invariant: it constructs, restores, draws, or leaves the engine. -/
theorem engineOk_exec {i : Instr} {s t : State} (hs : EngineOk s.type s.w) (h : exec i s = .next t) :
    EngineOk t.type t.w := by
  cases i with
  | seed1 e => cases h; exact engineOk_seedWords1 _ e _
  | seed2 e =>
    rw [exec, execSeed2] at h
    split at h
    · rename_i w hw
      cases h
      exact engineOk_seedWords2 hw
    · cases h
      exact hs
  | load => cases h; exact engineOk_lxmLoad _
  | save => rw [exec, execSave] at h; exact engineOk_whenConfigured hs h fun _ _ => hs
  | size => rw [exec, execSize] at h; exact engineOk_whenConfigured hs h fun _ _ => hs
  | nextw => rw [exec, execNextw] at h; exact engineOk_whenConfigured hs h fun _ he => engineOk_afterDraw he hs
  | next32 => rw [exec, execNext32] at h; exact engineOk_whenConfigured hs h fun _ he => engineOk_afterDraw he hs
  | next64 => rw [exec, execNext64] at h; exact engineOk_whenConfigured hs h fun _ he => engineOk_afterDraw64 he hs
  | restore tag len =>
    rw [exec, execRestore] at h
    refine engineOk_whenConfigured hs h fun e he => ?_
    split
    · split
      · rename_i w hw
        rw [complete_type, complete_w, he]
        exact engineOk_restoreWords hw
      · exact hs
    · exact hs
  | bnd32 =>
    rw [exec, execBnd32] at h
    refine engineOk_whenConfigured hs h fun e he => ?_
    split
    · exact hs
    · rw [endCandidate_type, endCandidate_w]
      exact engineOk_afterDraw he hs
  | bnd64 =>
    rw [exec, execBnd64] at h
    refine engineOk_whenConfigured hs h fun e he => ?_
    split
    · exact hs
    · rw [endCandidate_type, endCandidate_w]
      exact engineOk_afterDraw64 he hs

theorem engineOk_engineStep {s t : State} (hs : EngineOk s.type s.w) (h : engineStep s = .next t) :
    EngineOk t.type t.w := by
  obtain ⟨r, -, rfl⟩ | ⟨i, -, hexec⟩ := engineStep_cases h
  · exact hs
  · exact engineOk_exec hs hexec

/-! ### A command that goes on (R35, R126) -/

section
variable {s t : State} {e : Engine}

/-- `BND32` goes on past its limit check only, after a rejected candidate (R124, R126). -/
theorem execBnd32_goesOn (he : s.type = some e) (h : execBnd32 s = .next t) (hgo : t.busy = true) :
    (s.latch.first = false ∨ 0 < (limit32 s).toInt) ∧ WentOn s t 1 := by
  obtain ⟨hfirst, hl⟩ | hpass := limitCheck_cases s.latch.first (limit32 s)
  · rw [execBnd32_bad he hfirst (badLimit_of_nonpos hl)] at h
    cases h
    cases hgo
  · rw [execBnd32_candidate he (hpass.imp_right badLimit_of_pos)] at h
    cases h
    cases hv : (candidate32 e s).map (BitVec.setWidth 64) with
    | some v => rw [hv] at hgo; cases hgo
    | none => exact ⟨hpass, wentOn_afterDraw e s⟩

/-- `BND64` goes on past its limit check only, after a rejected candidate (R125, R126). -/
theorem execBnd64_goesOn (he : s.type = some e) (h : execBnd64 s = .next t) (hgo : t.busy = true) :
    (s.latch.first = false ∨ 0 < (limit64 s).toInt) ∧ WentOn s t (drawsOf64 e) := by
  obtain ⟨hfirst, hl⟩ | hpass := limitCheck_cases s.latch.first (limit64 s)
  · rw [execBnd64_bad he hfirst (badLimit_of_nonpos hl)] at h
    cases h
    cases hgo
  · rw [execBnd64_candidate he (hpass.imp_right badLimit_of_pos)] at h
    cases h
    cases hv : candidate64 e s with
    | some v => rw [hv] at hgo; cases hgo
    | none => exact ⟨hpass, wentOn_afterDraw64 e s⟩

/-- A command that goes on is a bounded one on a configured engine, past its limit check, after a rejected candidate. -/
theorem exec_goesOn {i : Instr} (h : exec i s = .next t) (hgo : t.busy = true) :
    s.type ≠ none ∧ (∃ draws, WentOn s t draws) ∧
      ((i = .bnd32 ∧ (s.latch.first = false ∨ 0 < (limit32 s).toInt)) ∨
        (i = .bnd64 ∧ (s.latch.first = false ∨ 0 < (limit64 s).toInt))) := by
  obtain ⟨c, -, rfl⟩ | ⟨r, s', rfl, -⟩ | ⟨hbounded, e, he, -⟩ := exec_cases h
  · cases hgo
  · cases hgo
  · have htype : s.type ≠ none := he ▸ Option.some_ne_none e
    cases i with
    | bnd32 =>
      obtain ⟨hpass, hwent⟩ := execBnd32_goesOn he h hgo
      exact ⟨htype, ⟨_, hwent⟩, .inl ⟨rfl, hpass⟩⟩
    | bnd64 =>
      obtain ⟨hpass, hwent⟩ := execBnd64_goesOn he h hgo
      exact ⟨htype, ⟨_, hwent⟩, .inr ⟨rfl, hpass⟩⟩
    | _ => cases hbounded

/-- Whether a command is past its checks depends on `TYPE` and the latched word and operands alone. -/
theorem inLoop_of_wentOn {draws : Word} (h : WentOn s t draws) (hloop : InLoop s) : InLoop t := by
  obtain ⟨-, -, -, -, htype, -, hcmd, hargs, -⟩ := h
  rw [InLoop, limit32, limit64] at hloop ⊢
  rwa [htype, hcmd, hargs]

/-- An engine step keeps the invariant of a running command: what goes on has passed its checks, in this step or in an
earlier one. -/
theorem latchOk_engineStep (hlatch : LatchOk s) (hbusy : s.busy = true) (h : engineStep s = .next t) : LatchOk t := by
  intro hgo
  obtain ⟨hdone, -, hlater⟩ := hlatch hbusy
  obtain ⟨r, -, rfl⟩ | ⟨i, hdecode, hexec⟩ := engineStep_cases h
  · cases hgo
  obtain ⟨htype, ⟨draws, hwent⟩, hcommand⟩ := exec_goesOn hexec hgo
  have hloop : InLoop s := by
    obtain ⟨rfl, hfirst | hl⟩ | ⟨rfl, hfirst | hl⟩ := hcommand
    · exact hlater hfirst
    · exact ⟨htype, .inl ⟨hdecode, hl⟩⟩
    · exact hlater hfirst
    · exact ⟨htype, .inr ⟨hdecode, hl⟩⟩
  have hloop' := inLoop_of_wentOn hwent hloop
  obtain ⟨-, hd, -, -, -, -, -, -, hfirst, -⟩ := hwent
  exact ⟨hd.trans hdone, fun h => absurd h (Bool.eq_false_iff.mp hfirst), fun _ => hloop'⟩

/-! ### The invariant over a step of either agent (R31) -/

theorem inv_engineStep (hinv : s.Inv) (hbusy : s.busy = true) (h : engineStep s = .next t) : t.Inv := by
  obtain ⟨hengine, hlatch⟩ := hinv
  exact ⟨engineOk_engineStep hengine h, latchOk_engineStep hlatch hbusy h⟩

end

/-- No register write sets `DONE` (R26, R36). -/
theorem writeReg_done (r : Reg) (v : Word) {s : State} (h : s.done = false) : (writeReg r v s).done = false := by
  cases r with
  | status => simp [writeReg, h]
  | cmd =>
    rw [writeReg, writeCmd]
    split
    · exact h
    · rfl
  | _ => exact h

/-- A register write reaches no running command, and what it starts is at its first step. -/
theorem latchOk_writeReg (r : Reg) (v : Word) {s : State} (hlatch : LatchOk s) : LatchOk (writeReg r v s) := by
  intro hgo
  cases hbusy : s.busy with
  | true =>
    obtain ⟨hdone, hn, hlater⟩ := hlatch hbusy
    obtain ⟨-, hl⟩ := writeReg_latch r v s hbusy
    obtain ⟨-, -, -, htype, -⟩ := writeReg_engine r v s
    refine ⟨writeReg_done r v hdone, ?_⟩
    rw [InLoop, limit32, limit64, hl, htype]
    exact ⟨hn, hlater⟩
  | false =>
    obtain ⟨-, haccept⟩ | hidle := writeReg_idle r v s hbusy
    · rw [haccept]
      exact ⟨rfl, fun _ => rfl, nofun⟩
    · exact absurd hgo (Bool.eq_false_iff.mp hidle)

theorem inv_writeReg (r : Reg) (v : Word) {s : State} (hinv : s.Inv) : (writeReg r v s).Inv := by
  obtain ⟨hengine, hlatch⟩ := hinv
  obtain ⟨-, -, -, htype, hw, -⟩ := writeReg_engine r v s
  refine ⟨?_, latchOk_writeReg r v hlatch⟩
  rwa [htype, hw]

/-- Nothing is configured after reset, and no command runs (R38, R270). -/
theorem inv_resetBlock (s : State) : (resetBlock s).Inv := ⟨rfl, nofun⟩

/-- Settles O50: the reset state has no engine and no command. -/
theorem invariantHoldsAtReset : Obligations.InvariantHoldsAtReset := by
  unfold Obligations.InvariantHoldsAtReset
  exact ⟨rfl, nofun⟩

/-- Settles O51, by what the step is: the invariant does not speak of the agents' record, and register writes, engine
steps and reset each keep it. -/
theorem everyStepKeepsTheInvariant : Obligations.EveryStepKeepsTheInvariant := by
  unfold Obligations.EveryStepKeepsTheInvariant
  intro s t hinv h
  obtain ⟨later, ops, log, rfl⟩ | ⟨later, rest, r, v, -, rfl⟩ | ⟨later, hbusy, hengine⟩ | ⟨later, -, rfl⟩ :=
    step_cases h
  · exact hinv
  · exact inv_writeReg r v (s := { s with turns := later, host := rest }) hinv
  · exact inv_engineStep (s := { s with turns := later }) hinv hbusy hengine
  · exact inv_resetBlock _

end Sys2Proof.Machine

/-! # The other family, what a step reads and writes (`10_state.md` R22, R23, R34; `30_encoding.md` R76;
`70_reset_and_hazards.md` R272, R276) -/

namespace Sys2Proof.Machine

/-! ### The effect of a command's step -/

/-- What one engine step of a command does, with every value it has computed. -/
inductive Effect where
  /-- The command ends with an error. -/
  | fail (code : ErrCode)
  /-- The command ends with these results, this engine state and this draw count. -/
  | finish (results : List (Fin 4 × Word)) (type : Option Engine) (w : Words4) (n : Word)
  /-- The command goes on with these engine words and this draw count. -/
  | goOn (w : Words4) (n : Word)

/-- The effect on a state. -/
def Effect.apply : Effect → State → State
  | .fail code, s => raiseError code s
  | .finish results type w n, s =>
    complete results { s with type := type, w := w, latch := { s.latch with n := n } }
  | .goOn w n, s => { s with w := w, latch := { s.latch with first := false, n := n } }

/-- The result registers the effect writes. -/
def Effect.dests : Effect → List (Fin 4)
  | .fail _ => []
  | .finish results _ _ _ => results.map Prod.fst
  | .goOn _ _ => []

/-- The result registers a command may write (R76). -/
def resultRegs : Instr → List (Fin 4)
  | .seed1 _ => []
  | .seed2 _ => []
  | .load => []
  | .save => [0, 1, 2, 3]
  | .restore _ _ => []
  | .size => [0]
  | .nextw => [0]
  | .next32 => [0]
  | .next64 => [0]
  | .bnd32 => [0]
  | .bnd64 => [0]

/-- The state `o` with what a command's step reads taken from `s`: the engine, the latch and the parameter (R272). -/
def State.withEngineOf (o s : State) : State :=
  { o with type := s.type, w := s.w, latch := s.latch, pcgDefaultInc := s.pcgDefaultInc }

theorem withEngineOf_of_eq {o s : State} (htype : s.type = o.type) (hw : s.w = o.w) (hlatch : s.latch = o.latch)
    (hinc : s.pcgDefaultInc = o.pcgDefaultInc) : o.withEngineOf s = o := by
  rw [State.withEngineOf, htype, hw, hlatch, hinc]

/-- The step has one effect on every state with the engine, latch and parameter of `s`, and writes no results but the
command's own. -/
def HasEffect (i : Instr) (s : State) : Prop :=
  ∃ E : Effect, E.dests ⊆ resultRegs i ∧ ∀ o : State, exec i (o.withEngineOf s) = .next (E.apply (o.withEngineOf s))

section
variable {i : Instr} {s : State}

theorem hasEffect_fail {code : ErrCode}
    (h : ∀ o : State, exec i (o.withEngineOf s) = .next (raiseError code (o.withEngineOf s))) : HasEffect i s :=
  ⟨.fail code, List.nil_subset _, h⟩

theorem hasEffect_configuring (hc : configuring i = true) (hwf : i.wf = true) : HasEffect i s := by
  obtain ⟨e, words, -, hexec⟩ := exec_configure hc hwf
  exact ⟨.finish [] (some e) (words s.latch s.pcgDefaultInc) s.latch.n, List.nil_subset _, fun o => hexec _⟩

/-- A command that writes `RES0` alone, or nothing where it goes on, has the effect of a candidate's end (R126). -/
theorem hasEffect_endCandidate {v : Option Word} {w : Words4} {n : Word} (hi : [0] ⊆ resultRegs i)
    (h : ∀ o : State, exec i (o.withEngineOf s) =
      .next (endCandidate v { o.withEngineOf s with w := w, latch := { s.latch with n := n } })) : HasEffect i s := by
  cases v with
  | some r => exact ⟨.finish [(0, r)] s.type w n, hi, h⟩
  | none => exact ⟨.goOn w n, List.nil_subset _, h⟩

/-- The state after a 64-bit value has what the draw computed from the engine words and the draw count. -/
theorem afterDraw64_withEngineOf (e : Engine) (o s : State) :
    afterDraw64 e (o.withEngineOf s) =
      { o.withEngineOf s with
        w := (afterDraw64 e s).w, latch := { s.latch with n := (afterDraw64 e s).latch.n } } := by
  cases e <;> rfl

section
variable {e : Engine} (he : s.type = some e)
include he

theorem hasEffect_restore (tag len : BitVec 4) : HasEffect (.restore tag len) s := by
  by_cases hbad : BadRestore e tag len s.latch.args
  · have hcheck := (badRestore_iff _ _ _ _).mp hbad
    exact hasEffect_fail fun o => execRestore_bad (s := o.withEngineOf s) he hcheck
  · obtain ⟨htag, hcontent⟩ := not_or.mp (mt (badRestore_iff _ _ _ _).mpr hbad)
    obtain ⟨w, hw⟩ := Option.ne_none_iff_exists'.mp hcontent
    exact ⟨.finish [] s.type w s.latch.n, List.nil_subset _,
      fun o => execRestore_ok (s := o.withEngineOf s) he (Bool.of_not_eq_false htag) hw⟩

theorem hasEffect_next64 : HasEffect .next64 s := by
  refine ⟨.finish [(0, drawn64 e s)] s.type (afterDraw64 e s).w (afterDraw64 e s).latch.n, List.Subset.refl _,
    fun o => ?_⟩
  have hexec := execNext64_some (s := o.withEngineOf s) he
  rw [afterDraw64_withEngineOf] at hexec
  exact hexec

theorem hasEffect_bnd32 : HasEffect .bnd32 s := by
  obtain ⟨hfirst, hl⟩ | hpass := limitCheck_cases s.latch.first (limit32 s)
  · exact hasEffect_fail fun o => execBnd32_bad (s := o.withEngineOf s) he hfirst (badLimit_of_nonpos hl)
  · exact hasEffect_endCandidate (v := (candidate32 e s).map (BitVec.setWidth 64)) (w := (nextWord e s.w).2)
      (n := s.latch.n + 1) (List.Subset.refl _)
      fun o => execBnd32_candidate (s := o.withEngineOf s) he (hpass.imp_right badLimit_of_pos)

theorem hasEffect_bnd64 : HasEffect .bnd64 s := by
  obtain ⟨hfirst, hl⟩ | hpass := limitCheck_cases s.latch.first (limit64 s)
  · exact hasEffect_fail fun o => execBnd64_bad (s := o.withEngineOf s) he hfirst (badLimit_of_nonpos hl)
  · refine hasEffect_endCandidate (v := candidate64 e s) (w := (afterDraw64 e s).w) (n := (afterDraw64 e s).latch.n)
      (List.Subset.refl _) fun o => ?_
    rw [← afterDraw64_withEngineOf]
    exact execBnd64_candidate (s := o.withEngineOf s) he (hpass.imp_right badLimit_of_pos)

/-- On a configured engine a command's rule has its effect: it reads the engine words and the latch alone. -/
theorem hasEffect_configured (hc : configuring i = false) : HasEffect i s := by
  cases i with
  | seed1 | seed2 | load => cases hc
  | save =>
    exact ⟨.finish [(0, (snapshotWords e s.w).w0), (1, (snapshotWords e s.w).w1), (2, (snapshotWords e s.w).w2),
      (3, (snapshotWords e s.w).w3)] s.type s.w s.latch.n, List.Subset.refl _,
      fun o => execSave_some (s := o.withEngineOf s) he⟩
  | size =>
    exact ⟨.finish [(0, (stateSize e).setWidth 64)] s.type s.w s.latch.n, List.Subset.refl _,
      fun o => execSize_some (s := o.withEngineOf s) he⟩
  | nextw =>
    exact ⟨.finish [(0, drawn e s)] s.type (nextWord e s.w).2 (s.latch.n + 1), List.Subset.refl _,
      fun o => execNextw_some (s := o.withEngineOf s) he⟩
  | next32 =>
    exact ⟨.finish [(0, (drawn32 e s).setWidth 64)] s.type (nextWord e s.w).2 (s.latch.n + 1), List.Subset.refl _,
      fun o => execNext32_some (s := o.withEngineOf s) he⟩
  | next64 => exact hasEffect_next64 he
  | restore tag len => exact hasEffect_restore he tag len
  | bnd32 => exact hasEffect_bnd32 he
  | bnd64 => exact hasEffect_bnd64 he

end

end

/-- Every command's step is an effect that depends on the engine, the latch and the parameter alone (R272). -/
theorem exec_hasEffect (i : Instr) (s : State) : HasEffect i s := by
  cases hc : configuring i with
  | false =>
    cases he : s.type with
    | none => exact hasEffect_fail fun o => exec_unconfigured i (o.withEngineOf s) hc he
    | some e => exact hasEffect_configured he hc
  | true =>
    cases hwf : i.wf with
    | true => exact hasEffect_configuring hc hwf
    | false => exact hasEffect_fail fun o => exec_notWf hwf (o.withEngineOf s)

/-- Two states with the same engine, latch and parameter take the same effect, which writes no results but the
command's own. -/
theorem exec_effect {i : Instr} {s t : State} (h : exec i s = .next t) :
    ∃ E : Effect, E.dests ⊆ resultRegs i ∧ t = E.apply s ∧
      ∀ u, s.type = u.type → s.w = u.w → s.latch = u.latch → s.pcgDefaultInc = u.pcgDefaultInc →
        exec i u = .next (E.apply u) := by
  obtain ⟨E, hdests, hexec⟩ := exec_hasEffect i s
  refine ⟨E, hdests, Host.Outcome.next.inj (h.symm.trans (hexec s)), fun u htype hw hlatch hinc => ?_⟩
  have hu := hexec u
  rwa [withEngineOf_of_eq htype hw hlatch hinc] at hu

/-! ### The operand registers (R22, R276) -/

theorem effect_apply_arg (E : Effect) (s : State) (a : Words4) :
    E.apply { s with arg := a } = { E.apply s with arg := a } := by
  cases E <;> rfl

/-- Settles O57: the operand registers are not among what a step reads, and no effect writes them. -/
theorem operandWritesDoNotReachARunningCommand : Obligations.OperandWritesDoNotReachARunningCommand := by
  unfold Obligations.OperandWritesDoNotReachARunningCommand
  intro i s t a h
  obtain ⟨E, -, rfl, hsame⟩ := exec_effect h
  obtain ⟨harg, -⟩ := sameOutside_exec h
  refine ⟨harg, ?_⟩
  rw [← effect_apply_arg]
  exact hsame { s with arg := a } rfl rfl rfl rfl

/-! ### The results a command writes (R23, R37, R76) -/

theorem assignRes_get_of_notMem {r : List (Fin 4 × Word)} {k : Fin 4} (hk : k ∉ r.map Prod.fst) (q : Words4) :
    (assignRes r q).get k = q.get k := by
  induction r generalizing q with
  | nil => rfl
  | cons x r ih =>
    obtain ⟨hx, hr⟩ := not_or.mp (mt List.mem_cons.mpr hk)
    rw [assignRes_cons, ih hr, get_set_other _ _ _ _ hx]

/-- An assigned result does not depend on what stood there. -/
theorem assignRes_get_of_mem {r : List (Fin 4 × Word)} {k : Fin 4} (hk : k ∈ r.map Prod.fst) (p q : Words4) :
    (assignRes r p).get k = (assignRes r q).get k := by
  induction r generalizing p q with
  | nil => cases hk
  | cons x r ih =>
    rw [assignRes_cons, assignRes_cons]
    by_cases hr : k ∈ r.map Prod.fst
    · exact ih hr _ _
    · obtain rfl : k = x.1 := (List.mem_cons.mp hk).resolve_right hr
      rw [assignRes_get_of_notMem hr, assignRes_get_of_notMem hr, get_set_same, get_set_same]

theorem effect_apply_res_of_notMem {E : Effect} {k : Fin 4} (hk : k ∉ E.dests) (s : State) :
    (E.apply s).res.get k = s.res.get k := by
  cases E with
  | finish results type w n => exact assignRes_get_of_notMem hk s.res
  | _ => rfl

theorem effect_apply_res_of_mem {E : Effect} {k : Fin 4} (hk : k ∈ E.dests) (s u : State) :
    (E.apply s).res.get k = (E.apply u).res.get k := by
  cases E with
  | finish results type w n => exact assignRes_get_of_mem hk s.res u.res
  | _ => cases hk

/-- One effect on two states with the same engine, latch and `BUSY` leaves the same engine, `BUSY`, latch while busy,
and report at the end. -/
theorem effect_apply_agree (E : Effect) {s u : State} (hbusy : s.busy = u.busy) (htype : s.type = u.type)
    (hw : s.w = u.w) (hlatch : s.latch = u.latch) :
    (E.apply s).type = (E.apply u).type ∧ (E.apply s).w = (E.apply u).w ∧ (E.apply s).busy = (E.apply u).busy ∧
      ((E.apply s).busy = true → (E.apply s).latch = (E.apply u).latch) ∧
      (s.busy = true → (E.apply s).busy = false →
        (E.apply s).err = (E.apply u).err ∧ (E.apply s).cnt = (E.apply u).cnt ∧
          (E.apply s).done = (E.apply u).done) := by
  cases E with
  | fail code => exact ⟨htype, hw, rfl, nofun, fun _ _ => ⟨rfl, rfl, rfl⟩⟩
  | finish results type w n => exact ⟨rfl, rfl, rfl, nofun, fun _ _ => ⟨rfl, rfl, rfl⟩⟩
  | goOn w n =>
    exact ⟨htype, rfl, hbusy, fun _ => congrArg (fun l : Latch => { l with first := false, n := n }) hlatch,
      fun hgo hend => absurd hgo (Bool.eq_false_iff.mp hend)⟩

/-- Settles O56: both steps are one effect, and each result is written by it in both or in neither. -/
theorem resultsDependOnlyOnEngineAndLatch : Obligations.ResultsDependOnlyOnEngineAndLatch := by
  unfold Obligations.ResultsDependOnlyOnEngineAndLatch
  intro i s u t v hs hu htype hw hlatch hinc ht hv
  obtain ⟨E, -, rfl, hsame⟩ := exec_effect ht
  obtain rfl : v = E.apply u := Host.Outcome.next.inj (hv.symm.trans (hsame u htype hw hlatch hinc))
  obtain ⟨h1, h2, h3, h4, hreport⟩ := effect_apply_agree E (hs.trans hu.symm) htype hw hlatch
  refine ⟨h1, h2, h3, h4, fun hend => ?_⟩
  obtain ⟨herr, hcnt, hdone⟩ := hreport hs hend
  refine ⟨herr, hcnt, hdone, fun k => ?_⟩
  by_cases hk : k ∈ E.dests
  · exact .inl (effect_apply_res_of_mem hk s u)
  · exact .inr ⟨effect_apply_res_of_notMem hk s, effect_apply_res_of_notMem hk u⟩

/-! ### The frame of a command through the register space (R76) -/

/-- A command leaves the results that are not its own. -/
theorem exec_res_of_notMem {i : Instr} {s t : State} (h : exec i s = .next t) {k : Fin 4} (hk : k ∉ resultRegs i) :
    t.res.get k = s.res.get k := by
  obtain ⟨E, hdests, rfl, -⟩ := exec_effect h
  exact effect_apply_res_of_notMem (fun hmem => hk (hdests hmem)) s

/-- `SAVE` may write every result, six commands `RES0`, the others none. -/
theorem mem_resultRegs {i : Instr} {k : Fin 4} (hk : k ∈ resultRegs i) :
    i = .save ∨ ((i = .size ∨ i = .nextw ∨ i = .next32 ∨ i = .next64 ∨ i = .bnd32 ∨ i = .bnd64) ∧ k = 0) := by
  cases i with
  | save => exact .inl rfl
  | seed1 | seed2 | load | restore => cases hk
  | size | nextw | next32 | next64 | bnd32 | bnd64 => simpa using List.mem_singleton.mp hk

/-- The register of result `k` (R21). -/
def resReg (k : Fin 4) : Reg :=
  match k with
  | 0 => .res0
  | 1 => .res1
  | 2 => .res2
  | 3 => .res3

theorem readReg_resReg (s : State) (k : Fin 4) : readReg s (resReg k) = s.res.get k := by
  fin_cases k <;> rfl

theorem regOffset_resReg (k : Fin 4) :
    regOffset (resReg k) = 0x40 ∨ regOffset (resReg k) = 0x48 ∨ regOffset (resReg k) = 0x50 ∨
      regOffset (resReg k) = 0x58 := by
  revert k
  decide

/-- Beside `STATUS`, `CNT` and the results, a register reads what no engine step touches. -/
theorem readReg_of_sameOutside {s t : State} (h : SameOutside s t) {r : Reg} (hstatus : r ≠ .status) (hcnt : r ≠ .cnt)
    (hres : ∀ k, r ≠ resReg k) : readReg t r = readReg s r := by
  obtain ⟨harg, hie, -⟩ := h
  cases r with
  | status => exact absurd rfl hstatus
  | cnt => exact absurd rfl hcnt
  | res0 => exact absurd rfl (hres 0)
  | res1 => exact absurd rfl (hres 1)
  | res2 => exact absurd rfl (hres 2)
  | res3 => exact absurd rfl (hres 3)
  | ctrl => rw [readReg, readReg, ctrlWord, ctrlWord, hie]
  | arg0 | arg1 | arg2 | arg3 => rw [readReg, readReg, harg]
  | id | cmd | rsv68 | rsv70 | rsv78 => rfl

/-- Settles O54, by the register at the offset: none, a result, or one that no engine step touches. -/
theorem commandsLeaveOtherRegistersAlone : Obligations.CommandsLeaveOtherRegistersAlone := by
  unfold Obligations.CommandsLeaveOtherRegistersAlone
  intro i s t h off hstatus hcnt
  cases hoff : regAt off with
  | none => exact .inr (.inr (by rw [memRead, memRead, hoff]; rfl))
  | some r =>
    obtain rfl := (regAt_eq_some off r).mp hoff
    rw [memRead_regOffset, memRead_regOffset]
    by_cases hres : ∃ k, r = resReg k
    · obtain ⟨k, rfl⟩ := hres
      by_cases hk : k ∈ resultRegs i
      · obtain hsave | ⟨hone, rfl⟩ := mem_resultRegs hk
        · exact .inl ⟨hsave, regOffset_resReg k⟩
        · exact .inr (.inl ⟨hone, rfl⟩)
      · rw [readReg_resReg, readReg_resReg, exec_res_of_notMem h hk]
        exact .inr (.inr rfl)
    · refine .inr (.inr (congrArg some (readReg_of_sameOutside (sameOutside_exec h) ?_ ?_ (not_exists.mp hres))))
      · rintro rfl
        exact hstatus rfl
      · rintro rfl
        exact hcnt rfl

/-! ### The latch of an idle block (R34) -/

/-- The state with another latch. -/
def State.withLatch (s : State) (l : Latch) : State := { s with latch := l }

/-- The outcome `o'` is `o` but for the latch, and for that only while no command runs. -/
def SameButIdleLatch (o o' : Host.Outcome State Fault Refusal) : Prop :=
  ∀ t, o = .next t → ∃ k, o' = .next (t.withLatch k) ∧ (t.busy = true → k = t.latch)

/-- An idle next state may differ in the latch. -/
theorem sameButIdleLatch_idle {t : State} (l : Latch) (hidle : t.busy = false) :
    SameButIdleLatch (.next t) (.next (t.withLatch l)) := by
  rintro _ ⟨⟩
  exact ⟨l, rfl, fun hbusy => absurd hbusy (Bool.eq_false_iff.mp hidle)⟩

theorem sameButIdleLatch_refl (o : Host.Outcome State Fault Refusal) : SameButIdleLatch o o :=
  fun t h => ⟨t.latch, h, fun _ => rfl⟩

/-- No register shows the latch (R34, R52). -/
theorem readReg_withLatch (s : State) (l : Latch) (r : Reg) : readReg (s.withLatch l) r = readReg s r := by
  cases r <;> rfl

theorem hostRead_withLatch (r : Reg) (s : State) (l : Latch) :
    hostRead r (s.withLatch l) = (hostRead r s).withLatch l := by
  rw [hostRead, readReg_withLatch]
  rfl

section
variable {s : State} (l : Latch) (hidle : s.busy = false)
include hidle

/-- The acceptance of a command replaces the latch, and no other register write touches it. -/
theorem sameButIdleLatch_writeReg (r : Reg) (v : Word) :
    SameButIdleLatch (.next (writeReg r v s)) (.next (writeReg r v (s.withLatch l))) := by
  cases r with
  | cmd =>
    rw [writeReg, writeReg, writeCmd_idle v s hidle, writeCmd_idle v (s.withLatch l) hidle]
    exact sameButIdleLatch_refl _
  | _ =>
    refine sameButIdleLatch_idle l ?_
    exact hidle

theorem sameButIdleLatch_hostOp (op : HostOp) (rest : List HostOp) :
    SameButIdleLatch (hostOp op rest s) (hostOp op rest (s.withLatch l)) := by
  cases op with
  | rd off width =>
    cases ht : target off width with
    | reg r =>
      have hread : hostRead r { s.withLatch l with host := rest } = (hostRead r { s with host := rest }).withLatch l :=
        hostRead_withLatch r { s with host := rest } l
      simp only [hostOp, ht, hread]
      exact sameButIdleLatch_idle l ((hostRead_busy r _).trans hidle)
    | refused => simp only [hostOp, ht]; exact sameButIdleLatch_refl _
    | elsewhere => simp only [hostOp, ht]; exact sameButIdleLatch_refl _
  | wr off width v =>
    cases ht : target off width with
    | reg r =>
      simp only [hostOp, ht]
      exact sameButIdleLatch_writeReg (s := { s with host := rest }) l hidle r v
    | refused => simp only [hostOp, ht]; exact sameButIdleLatch_refl _
    | elsewhere => simp only [hostOp, ht]; exact sameButIdleLatch_refl _
  | wait =>
    rw [hostOp, hostOp, hostWait_idle rest s hidle, hostWait_idle rest (s.withLatch l) hidle]
    exact sameButIdleLatch_idle (t := { s with host := rest }) l hidle

/-- No turn on an idle block reads the latch: the engine has no step, and reset takes a free value (R35, R270). -/
theorem sameButIdleLatch_takeTurn (k : Turn) :
    SameButIdleLatch (takeTurn k s) (takeTurn k (s.withLatch l)) := by
  cases k with
  | host =>
    cases hhost : s.host with
    | nil =>
      rw [takeTurn, takeTurn, hostTurn_nil hhost, hostTurn_nil (s := s.withLatch l) hhost]
      exact sameButIdleLatch_idle l hidle
    | cons op rest =>
      rw [takeTurn, takeTurn, hostTurn_cons hhost, hostTurn_cons (s := s.withLatch l) hhost]
      exact sameButIdleLatch_hostOp l hidle op rest
  | engine =>
    rw [takeTurn, takeTurn, engineTurn_idle hidle, engineTurn_idle (s := s.withLatch l) hidle]
    exact sameButIdleLatch_idle l hidle
  | reset => exact sameButIdleLatch_refl _

theorem sameButIdleLatch_step : SameButIdleLatch (step s) (step (s.withLatch l)) := by
  cases hturns : s.turns with
  | nil =>
    rw [step_of_turns_nil_idle hturns hidle, step_of_turns_nil_idle (s := s.withLatch l) hturns hidle]
    exact sameButIdleLatch_takeTurn l hidle .host
  | cons k rest =>
    rw [step_of_turns_cons hturns, step_of_turns_cons (s := s.withLatch l) hturns]
    exact sameButIdleLatch_takeTurn (s := { s with turns := rest }) l hidle k

end

/-- Settles O58: turn by turn, the latch of an idle block is left, replaced, or given a free value, and not read. -/
theorem idleLatchIsNeverRead : Obligations.IdleLatchIsNeverRead := by
  unfold Obligations.IdleLatchIsNeverRead
  exact fun s t l hidle h => sameButIdleLatch_step l hidle t h

end Sys2Proof.Machine
